-- ==== Sys2Proof/Word.lean ====
section
/-! DEFINITION. The plain types of the block: bytes, addresses, the small unsigned fields, and a
value for each lane; and the two parameters that shape them. -/

namespace Sys2Proof

/-- One DPCD byte (R62, R68). -/
abbrev Byte := BitVec 8

/-- The two parameters of R7 that shape the types of the state: the rest of the record is `Params`
(Config.lean), which extends this one. -/
structure Shape where
  /-- `MAX_LANES` (R33): how many lanes the lane file has. -/
  maxLanes : Nat
  /-- `DPCD_ADDR_WIDTH` (R61): the width of a sink address. -/
  dpcdAddrWidth : Nat
  deriving DecidableEq, Repr

/-- Their values for this hardware (R7). The address width is G6: UNVERIFIED, unsafe (log entry 18). -/
@[reducible] def Config.shape : Shape where
  maxLanes := 4
  dpcdAddrWidth := 20

/-- A DPCD address, `DPCD_ADDR_WIDTH` bits (R61). -/
abbrev Addr := BitVec Config.shape.dpcdAddrWidth

/-- A link-rate index: 0 is 1.62, 1 is 2.7, 2 is 5.4, 3 is 8.1 Gbps (R25, R96). -/
abbrev RateIdx := BitVec 2

/-- A lane count inside the block, an unsigned number in 3 bits (R26, R97). -/
abbrev LaneCount := BitVec 3

/-- A voltage-swing or pre-emphasis level, 0 to 3 (R33). -/
abbrev Level := BitVec 2

/-- A lane number, 0 to `MAX_LANES` - 1 (R33). -/
abbrev LaneIdx := Fin Config.shape.maxLanes

/-- One value for each of the `MAX_LANES` lanes, lane 0 first (R33). -/
structure Lanes (α : Type) where
  /-- the values -/
  toList : List α
  /-- there is one for each lane -/
  length_toList : toList.length = Config.shape.maxLanes
  deriving DecidableEq, Repr

/-- The value of one lane. -/
def Lanes.get {α : Type} (q : Lanes α) (i : LaneIdx) : α :=
  q.toList.get (i.cast q.length_toList.symm)

/-- The values given by a function of the lane number. -/
def Lanes.ofFn {α : Type} (f : LaneIdx → α) : Lanes α := ⟨List.ofFn f, List.length_ofFn⟩

/-- The same value for every lane. -/
def Lanes.replicate {α : Type} (a : α) : Lanes α :=
  ⟨List.replicate Config.shape.maxLanes a, List.length_replicate⟩

/-- A function applied to the value of each lane. -/
def Lanes.map {α β : Type} (f : α → β) (q : Lanes α) : Lanes β :=
  ⟨q.toList.map f, by rw [List.length_map, q.length_toList]⟩

end Sys2Proof
end

