-- ==== Sys2Proof/Config.lean ====
section
/-! DEFINITION. The parameter record of the block (R7), its values for this hardware, and the free
values of the sampled wires. -/

namespace Sys2Proof

/-- `RATE_CODE[0..3]` (R96): one code for each of the four rate indices. -/
structure RateCodes where
  /-- 1.62 Gbps -/
  c0 : Byte
  /-- 2.7 Gbps -/
  c1 : Byte
  /-- 5.4 Gbps -/
  c2 : Byte
  /-- 8.1 Gbps -/
  c3 : Byte
  deriving DecidableEq, Repr

/-- Every numeric literal of the procedure as a named parameter (R7). The fields `maxLanes` and
`dpcdAddrWidth` are those of `Shape`. -/
structure Params extends Shape where
  /-- `LADDER`: the rate indices from the highest rate down (R186). -/
  ladder : List RateIdx
  /-- `CR_STALL_MAX` (R175). -/
  crStallMax : Nat
  /-- `EQ_RETRY_MAX` (R201). -/
  eqRetryMax : Nat
  /-- `TOTAL_RETRY_MAX` (R176). -/
  totalRetryMax : Nat
  /-- `MAX_REACH_THRESHOLD` (R232, R234). -/
  maxReachThreshold : Nat
  /-- `AUX_RETRY_MAX` (R66). -/
  auxRetryMax : Nat
  /-- `AUX_BACKOFF_US` (R66). -/
  auxBackoffUs : Nat
  /-- `RD_INTERVAL_UNIT_US` (R172). -/
  rdIntervalUnitUs : Nat
  /-- `RD_INTERVAL_MIN_US` (R172). -/
  rdIntervalMinUs : Nat
  /-- `CAP_ADDR` (R150). -/
  capAddr : Addr
  /-- `CAP_LEN` (R150). -/
  capLen : Nat
  /-- `CAP_OFF_MAX_RATE` (R105). -/
  capOffMaxRate : Nat
  /-- `CAP_OFF_MAX_LANES` (R105): also the byte of `CAP_TPS3_BIT` and `CAP_EFC_BIT`. -/
  capOffMaxLanes : Nat
  /-- The byte of `CAP_TPS4_BIT` (R105). -/
  capOffTps4 : Nat
  /-- `ADDR_LINK_BW_SET` (R63). -/
  addrLinkBwSet : Addr
  /-- `ADDR_LANE_COUNT_SET` (R63, R70): the second byte of the burst at `ADDR_LINK_BW_SET`. -/
  addrLaneCountSet : Addr
  /-- `ADDR_TRAINING_PATTERN_SET` (R63). -/
  addrTrainingPatternSet : Addr
  /-- `ADDR_TRAINING_LANE0_SET` (R63). -/
  addrTrainingLane0Set : Addr
  /-- `ADDR_SINK_COUNT` (R63): never accessed. -/
  addrSinkCount : Addr
  /-- `ADDR_LANE0_1_STATUS` (R63). -/
  addrLane01Status : Addr
  /-- `ADDR_LANE2_3_STATUS` (R63). -/
  addrLane23Status : Addr
  /-- `ADDR_ALIGN_STATUS` (R63). -/
  addrAlignStatus : Addr
  /-- `ADDR_ADJUST_REQUEST` (R63). -/
  addrAdjustRequest : Addr
  /-- `TPSET_NORMAL` (R98). -/
  tpsetNormal : Byte
  /-- `TPSET_TPS1` (R98). -/
  tpsetTps1 : Byte
  /-- `TPSET_TPS2` (R98). -/
  tpsetTps2 : Byte
  /-- `TPSET_TPS3` (R98). -/
  tpsetTps3 : Byte
  /-- `TPSET_TPS4` (R98). -/
  tpsetTps4 : Byte
  /-- `LANESET_MAX_PE_BIT` (R101, R233). -/
  lanesetMaxPeBit : Nat
  /-- `LANESET_MAX_SW_BIT` (R101, R233). -/
  lanesetMaxSwBit : Nat
  /-- `RATE_CODE[0..3]` (R96). -/
  rateCode : RateCodes
  /-- `CAP_LANES_MASK` (R105). -/
  capLanesMask : Byte
  /-- `CAP_TPS3_BIT` (R105). -/
  capTps3Bit : Nat
  /-- `CAP_EFC_BIT` (R105). -/
  capEfcBit : Nat
  /-- `CAP_TPS4_BIT` (R105). -/
  capTps4Bit : Nat
  /-- `LCS_LANES_MASK` (R100). -/
  lcsLanesMask : Byte
  /-- `LCS_EFC_BIT` (R100). -/
  lcsEfcBit : Nat
  /-- `ALIGN_DONE_BIT` (R103). -/
  alignDoneBit : Nat
  /-- `LINK_STATUS_UPDATED_BIT` (R103). -/
  linkStatusUpdatedBit : Nat
  /-- `CAP_OFF_RD_INTERVAL` (R105). -/
  capOffRdInterval : Nat
  /-- `RD_INTERVAL_MASK` (R105). -/
  rdIntervalMask : Byte
  /-- `SRC_TPS3_SUPPORTED` (R196). -/
  srcTps3Supported : Bool
  /-- `SRC_TPS4_SUPPORTED` (R196). -/
  srcTps4Supported : Bool
  deriving DecidableEq, Repr

/-- The parameter values of this hardware (R7). Those the spec itself marks as supplied from general
knowledge (G1 to G6, G10) are UNVERIFIED, unsafe: log entry 18. -/
def Config.hw : Params where
  toShape := Config.shape
  ladder := [3, 2, 1, 0]
  crStallMax := 4
  eqRetryMax := 5
  totalRetryMax := 10
  maxReachThreshold := 5
  auxRetryMax := 4
  auxBackoffUs := 50000
  rdIntervalUnitUs := 4000
  rdIntervalMinUs := 100
  capAddr := 0x000
  capLen := 16
  capOffMaxRate := 1
  capOffMaxLanes := 2
  capOffTps4 := 3
  addrLinkBwSet := 0x100
  addrLaneCountSet := 0x101
  addrTrainingPatternSet := 0x102
  addrTrainingLane0Set := 0x103
  addrSinkCount := 0x200
  addrLane01Status := 0x202
  addrLane23Status := 0x203
  addrAlignStatus := 0x204
  addrAdjustRequest := 0x206
  tpsetNormal := 0x00
  tpsetTps1 := 0x21
  tpsetTps2 := 0x22
  tpsetTps3 := 0x23
  tpsetTps4 := 0x07
  lanesetMaxPeBit := 2
  lanesetMaxSwBit := 5
  rateCode := ⟨0x06, 0x0A, 0x14, 0x1E⟩
  capLanesMask := 0x1F
  capTps3Bit := 6
  capEfcBit := 7
  capTps4Bit := 7
  lcsLanesMask := 0x1F
  lcsEfcBit := 7
  alignDoneBit := 0
  linkStatusUpdatedBit := 7
  capOffRdInterval := 14
  rdIntervalMask := 0x7F
  srcTps3Supported := true
  srcTps4Supported := true

/-- FREE VALUE (DESIGN CHOICE, safe: log entry 2): what the wire `unplugged` shows at a poll for which
no input is scripted. The spec places no law on it (R40, R293). -/
opaque Config.freeUnplugged : Nat → Bool

/-- FREE VALUE (DESIGN CHOICE, safe: log entry 2): what the twelve PHY status wires show at a sample
for which no input is scripted: `pipe_active`, `phy_cur_lanes[2:0]`, `phy_cur_rate_code[7:0]`, high to
low (R109). The spec places no law on them (R40, R293). -/
opaque Config.freePhyStatus : Nat → BitVec 12

end Sys2Proof
end

