-- ==== Sys2Proof/Syntax.lean ====
section
/-! DEFINITION. The names of the block (states, phases, result codes, patterns, PHY operations) and
`Instr`, one constructor for each row of spec/opcode_table.json. -/

namespace Sys2Proof

/-- The FSM states, the values of `st` (R21, R95). Codes 11 to 15 are unreachable (U6): no constructor. -/
inductive Fsm where
  | idle | capNeg | phySetup | clockRecovery | reduceLinkRate | equalizationSetup
  | equalization | success | failed | linkUnplugged | healthCheck
  deriving DecidableEq, Repr

/-- The values of `phase` and `res_phase` (R29, R94). Code 7 is never produced (U6): no constructor. -/
inductive Phase where
  | none | capNeg | phySetup | cr | eqSetup | eq | health
  deriving DecidableEq, Repr

/-- The result codes (R93). Code 7 is never produced (U6): no constructor. -/
inductive ResCode where
  | ok | linkUnplugged | trainingExhausted | capabilityMismatch | auxTransportError
  | retrainRequired | badCommand
  deriving DecidableEq, Repr

/-- The codes with which the state `Failed` is entered (R264). -/
inductive FailCode where
  | trainingExhausted | capabilityMismatch | auxTransportError
  deriving DecidableEq, Repr

/-- The document's TrainingPattern (R98). -/
inductive Pattern where
  | normal | tps1 | tps2 | tps3 | tps4
  deriving DecidableEq, Repr

/-- The PHY operations (R108). Codes 0 and 10 to 15 are never issued (U6): no constructor. -/
inductive PhyOpc where
  | reset | setLinkRate | setLaneCount | modeSetting | postInit | waitPllLock
  | setVoltPe | setPattern | setEnhFrame
  deriving DecidableEq, Repr

/-- One constructor for each row of spec/opcode_table.json, in the table's order. The operands are the
fields of the row's word. -/
inductive Instr where
  /-- `TRAIN` (R131): the fields `rate` and `lanes` of the command word. -/
  | train (rate : RateIdx) (lanes : LaneCount)
  /-- `CHECK_HEALTH` (R132): bits 6:2 of the command word, ignored. -/
  | checkHealth (ignored : BitVec 5)
  /-- `ILLEGAL_OP0` (R133): bits 6:2 of a word with `op` 0 and bit 7 clear (R91). -/
  | illegalOp0 (x : BitVec 5)
  /-- `ILLEGAL_OP3` (R133): bits 6:2 of a word with `op` 3 and bit 7 clear (R91). -/
  | illegalOp3 (x : BitVec 5)
  /-- `ILLEGAL_BIT7` (R133): bits 6:0 of a word with bit 7 set (tested first, R270). -/
  | illegalBit7 (x : BitVec 7)
  /-- `ST_Idle` (R134). -/
  | stIdle
  /-- `ST_CapNeg` (R150). -/
  | stCapNeg
  /-- `ST_PhySetup` (R160). -/
  | stPhySetup
  /-- `ST_ClockRecovery` (R170): one round. -/
  | stClockRecovery
  /-- `ST_ReduceLinkRate` (R185). -/
  | stReduceLinkRate
  /-- `ST_EqualizationSetup` (R195). -/
  | stEqualizationSetup
  /-- `ST_Equalization` (R197): one round. -/
  | stEqualization
  /-- `ST_Success` (R200). -/
  | stSuccess
  /-- `ST_Failed` (R264). -/
  | stFailed
  /-- `ST_LinkUnplugged` (R265). -/
  | stLinkUnplugged
  /-- `ST_HealthCheck` (R245). -/
  | stHealthCheck
  /-- `RES_OK` (R93): the fields `op`, `phase`, `rate`, `lanes` of the result word (R92). -/
  | resOk (op : BitVec 2) (phase : Phase) (rate : RateIdx) (lanes : LaneCount)
  /-- `RES_LINK_UNPLUGGED` (R93). -/
  | resLinkUnplugged (op : BitVec 2) (phase : Phase) (rate : RateIdx) (lanes : LaneCount)
  /-- `RES_TRAINING_EXHAUSTED` (R93). -/
  | resTrainingExhausted (op : BitVec 2) (phase : Phase) (rate : RateIdx) (lanes : LaneCount)
  /-- `RES_CAPABILITY_MISMATCH` (R93). -/
  | resCapabilityMismatch (op : BitVec 2) (phase : Phase) (rate : RateIdx) (lanes : LaneCount)
  /-- `RES_AUX_TRANSPORT_ERROR` (R93). -/
  | resAuxTransportError (op : BitVec 2) (phase : Phase) (rate : RateIdx) (lanes : LaneCount)
  /-- `RES_RETRAIN_REQUIRED` (R93). -/
  | resRetrainRequired (op : BitVec 2) (phase : Phase) (rate : RateIdx) (lanes : LaneCount)
  /-- `RES_BAD_COMMAND` (R93). -/
  | resBadCommand (op : BitVec 2) (phase : Phase) (rate : RateIdx) (lanes : LaneCount)
  /-- `PHASE_NONE` (R94). -/
  | phaseNone
  /-- `PHASE_CAPNEG` (R94). -/
  | phaseCapNeg
  /-- `PHASE_PHYSETUP` (R94). -/
  | phasePhySetup
  /-- `PHASE_CR` (R94). -/
  | phaseCr
  /-- `PHASE_EQSETUP` (R94). -/
  | phaseEqSetup
  /-- `PHASE_EQ` (R94). -/
  | phaseEq
  /-- `PHASE_HEALTH` (R94). -/
  | phaseHealth
  /-- `PHY_RESET` (R108): `arg[0]`, 1 asserts and 0 releases. -/
  | phyReset (assert : Bool)
  /-- `PHY_SET_LINK_RATE` (R108): `arg[1:0]`. -/
  | phySetLinkRate (rate : RateIdx)
  /-- `PHY_SET_LANE_COUNT` (R108): `arg[2:0]`. -/
  | phySetLaneCount (lanes : LaneCount)
  /-- `PHY_MODE_SETTING` (R108). -/
  | phyModeSetting
  /-- `PHY_POST_INIT` (R108). -/
  | phyPostInit
  /-- `PHY_WAIT_PLL_LOCK` (R108). -/
  | phyWaitPllLock
  /-- `PHY_SET_VOLT_PE` (R108): the four swings and the four pre-emphases. -/
  | phySetVoltPe (sw : Lanes Level) (pe : Lanes Level)
  /-- `PHY_SET_PATTERN` (R108): `arg[2:0]`, the pattern enum of R98. -/
  | phySetPattern (pattern : Pattern)
  /-- `PHY_SET_ENH_FRAME` (R108): `arg[0]`. -/
  | phySetEnhFrame (enable : Bool)
  /-- `AUX_RD` (R66, R107). -/
  | auxRd (addr : Addr) (len : BitVec 5)
  /-- `AUX_WR` (R67, R107): data byte `k` in bits `8k+7:8k` of `data`. -/
  | auxWr (addr : Addr) (len : BitVec 5) (data : BitVec 128)
  /-- `TPSET_NORMAL` (R98). -/
  | tpsetNormal
  /-- `TPSET_TPS1` (R98). -/
  | tpsetTps1
  /-- `TPSET_TPS2` (R98). -/
  | tpsetTps2
  /-- `TPSET_TPS3` (R98). -/
  | tpsetTps3
  /-- `TPSET_TPS4` (R98). -/
  | tpsetTps4
  /-- `RATE_1_62` (R96). -/
  | rate162
  /-- `RATE_2_7` (R96). -/
  | rate27
  /-- `RATE_5_4` (R96). -/
  | rate54
  /-- `RATE_8_1` (R96). -/
  | rate81
  deriving DecidableEq, Repr

end Sys2Proof
end

