-- ==== Sys2Proof/WellFormed.lean ====
section
/-! DEFINITION. Which instructions the block accepts or issues: the operand values of the spec's
encodings that the types alone do not rule out. -/

namespace Sys2Proof

/-- A lane count is 1, 2 or 4 (R97). -/
def lanesLegal (n : Nat) : Bool := n == 1 || n == 2 || n == 4

/-- `op` of a `TRAIN` result and of a `CHECK_HEALTH` result (R91, R92). -/
def resOpTrain : BitVec 2 := 1
def resOpCheckHealth : BitVec 2 := 2

/-- A completed check: `phase` is `HEALTH`, and `rate` and `lanes` are 0 (R132, R245). -/
def resOfCheck (op : BitVec 2) (phase : Phase) (rate : RateIdx) (lanes : LaneCount) : Bool :=
  op == resOpCheckHealth && phase == .health && rate == 0 && lanes == 0

/-- A completion of `TRAIN` after `CapNeg`: its `lanes` field is a lane count (R92). -/
def resOfTrain (op : BitVec 2) (lanes : LaneCount) : Bool :=
  op == resOpTrain && lanesLegal lanes.toNat

/-- A completion of `TRAIN` in `CapNeg`: no rate and no lane count was fixed (R92, R152). -/
def resOfCapNeg (op : BitVec 2) (phase : Phase) (rate : RateIdx) (lanes : LaneCount) : Bool :=
  op == resOpTrain && phase == .capNeg && rate == 0 && lanes == 0

/-- The operand values that the encodings of 30_encoding.md allow. -/
def Instr.wf : Instr → Bool
  | .train _ lanes => lanesLegal lanes.toNat                       -- R90, R133
  | .checkHealth _ => true                                         -- R132
  | .illegalOp0 _ => true                                          -- R133
  | .illegalOp3 _ => true                                          -- R133
  | .illegalBit7 _ => true                                         -- R133
  | .stIdle => true
  | .stCapNeg => true
  | .stPhySetup => true
  | .stClockRecovery => true
  | .stReduceLinkRate => true
  | .stEqualizationSetup => true
  | .stEqualization => true
  | .stSuccess => true
  | .stFailed => true
  | .stLinkUnplugged => true
  | .stHealthCheck => true
  | .resOk op phase rate lanes =>                                  -- R94: EQ or HEALTH
      (resOfTrain op lanes && phase == .eq) || resOfCheck op phase rate lanes
  | .resLinkUnplugged op phase _ lanes =>                          -- R94: the state that polled
      resOfTrain op lanes && (phase == .phySetup || phase == .cr || phase == .eq)
  | .resTrainingExhausted op phase _ lanes =>                      -- R94: CR or EQ
      resOfTrain op lanes && (phase == .cr || phase == .eq)
  | .resCapabilityMismatch op phase rate lanes =>                  -- R94: CAPNEG
      resOfCapNeg op phase rate lanes
  | .resAuxTransportError op phase rate lanes =>                   -- R94: the state whose primitive failed
      (resOfTrain op lanes && (phase == .phySetup || phase == .cr || phase == .eqSetup || phase == .eq))
        || resOfCapNeg op phase rate lanes || resOfCheck op phase rate lanes
  | .resRetrainRequired op phase rate lanes => resOfCheck op phase rate lanes
  | .resBadCommand _ phase rate lanes => phase == .none && rate == 0 && lanes == 0   -- R133
  | .phaseNone => true
  | .phaseCapNeg => true
  | .phasePhySetup => true
  | .phaseCr => true
  | .phaseEqSetup => true
  | .phaseEq => true
  | .phaseHealth => true
  | .phyReset _ => true
  | .phySetLinkRate _ => true
  | .phySetLaneCount lanes => lanesLegal lanes.toNat               -- R108
  | .phyModeSetting => true
  | .phyPostInit => true
  | .phyWaitPllLock => true
  | .phySetVoltPe _ _ => true
  | .phySetPattern _ => true
  | .phySetEnhFrame enable => enable                               -- R162: never issued with 0
  | .auxRd _ len => 1 ≤ len.toNat && len.toNat ≤ 16                -- R107
  | .auxWr _ len data =>                                           -- R107: bytes at k >= len are 0
      1 ≤ len.toNat && len.toNat ≤ 16 && (data >>> (8 * len.toNat)) == 0
  | .tpsetNormal => true
  | .tpsetTps1 => true
  | .tpsetTps2 => true
  | .tpsetTps3 => true
  | .tpsetTps4 => true
  | .rate162 => true
  | .rate27 => true
  | .rate54 => true
  | .rate81 => true

end Sys2Proof
end

