-- ==== Sys2Proof/Decode.lean ====
section
/-! DEFINITION. The encodings of 30_encoding.md: the codes of states, phases, results, patterns and
PHY operations, the words of the eight formats of spec/opcode_table.json, the decoder (total,
rejecting by name) and, after it, the encoder. -/

namespace Sys2Proof

/-! ### Codes -/

/-- The code of a state on `st` and `st_dbg` (R21, R95). -/
def Fsm.code : Fsm → BitVec 4
  | .idle => 0 | .capNeg => 1 | .phySetup => 2 | .clockRecovery => 3 | .reduceLinkRate => 4
  | .equalizationSetup => 5 | .equalization => 6 | .success => 7 | .failed => 8
  | .linkUnplugged => 9 | .healthCheck => 10

/-- The code of a phase (R29, R94). -/
def Phase.code : Phase → BitVec 3
  | .none => 0 | .capNeg => 1 | .phySetup => 2 | .cr => 3 | .eqSetup => 4 | .eq => 5 | .health => 6

/-- The phase of a 3-bit code; 7 is unused (R94). -/
def Phase.ofCode (c : BitVec 3) : Option Phase :=
  if c = 0 then some .none else if c = 1 then some .capNeg else if c = 2 then some .phySetup
  else if c = 3 then some .cr else if c = 4 then some .eqSetup else if c = 5 then some .eq
  else if c = 6 then some .health else Option.none

/-- The code of a result (R93). -/
def ResCode.code : ResCode → BitVec 3
  | .ok => 0 | .linkUnplugged => 1 | .trainingExhausted => 2 | .capabilityMismatch => 3
  | .auxTransportError => 4 | .retrainRequired => 5 | .badCommand => 6

/-- The 3-bit enum value of a pattern (R98). -/
def Pattern.code : Pattern → BitVec 3
  | .normal => 0 | .tps1 => 1 | .tps2 => 2 | .tps3 => 3 | .tps4 => 4

/-- The pattern of a 3-bit enum value; 5 to 7 name no pattern (R98). -/
def Pattern.ofCode (c : BitVec 3) : Option Pattern :=
  if c = 0 then some .normal else if c = 1 then some .tps1 else if c = 2 then some .tps2
  else if c = 3 then some .tps3 else if c = 4 then some .tps4 else none

/-- The op code of a PHY operation (R108). -/
def PhyOpc.code : PhyOpc → BitVec 4
  | .reset => 1 | .setLinkRate => 2 | .setLaneCount => 3 | .modeSetting => 4 | .postInit => 5
  | .waitPllLock => 6 | .setVoltPe => 7 | .setPattern => 8 | .setEnhFrame => 9

/-- `TpsetByte(p)`, the byte of `TRAINING_PATTERN_SET` (R98). -/
def tpsetByte (P : Params) : Pattern → Byte
  | .normal => P.tpsetNormal | .tps1 => P.tpsetTps1 | .tps2 => P.tpsetTps2
  | .tps3 => P.tpsetTps3 | .tps4 => P.tpsetTps4

/-- `RATE_CODE[r]`, the 8-bit code of a rate index (R96). -/
def rateCode (P : Params) (r : RateIdx) : Byte :=
  if r = 0 then P.rateCode.c0 else if r = 1 then P.rateCode.c1
  else if r = 2 then P.rateCode.c2 else P.rateCode.c3

/-- `RateIndex(code)`: defined for the four codes only (R96). -/
def rateIndex (P : Params) (c : Byte) : Option RateIdx :=
  if c = P.rateCode.c0 then some 0 else if c = P.rateCode.c1 then some 1
  else if c = P.rateCode.c2 then some 2 else if c = P.rateCode.c3 then some 3 else none

/-! ### Words of the ports -/

/-- The command word `0LLLRROO`, with bit 7 given (R90). -/
def cmdWord (bit7 : BitVec 1) (lanes : LaneCount) (rate : RateIdx) (op : BitVec 2) : BitVec 8 :=
  bit7 ++ lanes ++ rate ++ op

/-- The result word (R92): bits 15:14 are 0. -/
def resWordOf (valid : BitVec 1) (op : BitVec 2) (code phase : BitVec 3) (rate : RateIdx)
    (lanes : LaneCount) : BitVec 16 :=
  0#2 ++ lanes ++ rate ++ phase ++ code ++ op ++ valid

/-- The PHY request `phy_req[19:0]`: op in bits 3:0, arg in bits 19:4 (R108). -/
def phyReqWord (op : PhyOpc) (arg : BitVec 16) : BitVec 20 := arg ++ op.code

/-- The width of an AUX request (R107): 154 bits at an address width of 20. -/
abbrev auxReqWidth : Nat := 128 + 5 + Config.shape.dpcdAddrWidth + 1

/-- The AUX request `aux_req[153:0]`: data, len, addr, rw, high to low (R107). -/
def auxReqWord (rw : BitVec 1) (addr : Addr) (len : BitVec 5) (data : BitVec 128) :
    BitVec auxReqWidth :=
  data ++ len ++ addr ++ rw

/-- Byte `k` of a 16-byte data bus, the byte for address `addr + k` (R68, R107). -/
def dataByte (d : BitVec 128) (k : Nat) : Byte := d.extractLsb' (8 * k) 8

/-- The first `n` bytes of a data bus, lowest address first (R68). -/
def dataBytes (d : BitVec 128) (n : Nat) : List Byte := (List.range n).map (dataByte d)

/-- Bytes laid on a data bus, byte 0 lowest, the rest 0 (R107). -/
def packBytes : List Byte → BitVec 128
  | [] => 0
  | b :: bs => (packBytes bs <<< 8) ||| b.setWidth 128

/-- The argument of `PHY_RESET` and `PHY_SET_ENH_FRAME`: bit 0 (R108). -/
def argOfBit (b : Bool) : BitVec 16 := (BitVec.ofBool b).setWidth 16

/-- Levels side by side, the first lowest (R108). -/
def packLevels : List Level → BitVec 16
  | [] => 0
  | l :: ls => (packLevels ls <<< 2) ||| l.setWidth 16

/-- Levels taken apart: lane `i` in bits `2i+1:2i` above bit `k` (R108). -/
def unpackLevels (arg : BitVec 16) (k : Nat) : Lanes Level :=
  Lanes.ofFn fun i => arg.extractLsb' (k + 2 * i.val) 2

/-- The argument of `PHY_SET_VOLT_PE`: swings in bits 7:0, pre-emphases in bits 15:8, lane 0 lowest
(R108). -/
def voltPeArg (sw pe : Lanes Level) : BitVec 16 :=
  packLevels sw.toList ||| (packLevels pe.toList <<< 8)

/-! ### Table words and the decoder -/

/-- A word of one of the eight formats of spec/opcode_table.json. -/
inductive TableWord where
  /-- CMD: `cmd_word[7:0]` (R90). -/
  | cmd (w : BitVec 8)
  /-- ST: `st[3:0]` (R95). -/
  | st (w : BitVec 4)
  /-- RES: `res_word[15:0]` (R92). -/
  | res (w : BitVec 16)
  /-- PHASE: `phase[2:0]` (R94). -/
  | phase (w : BitVec 3)
  /-- PHYREQ: `phy_req[19:0]` (R108). -/
  | phyReq (w : BitVec 20)
  /-- AUXREQ: `aux_req[153:0]` (R107). -/
  | auxReq (w : BitVec auxReqWidth)
  /-- DPCD102: a byte of `TRAINING_PATTERN_SET` (R98). -/
  | dpcd102 (w : BitVec 8)
  /-- DPCD100: a byte of `LINK_BW_SET` (R96, R99). -/
  | dpcd100 (w : BitVec 8)
  deriving DecidableEq, Repr

/-- Why a word is no instruction (R112, U6). -/
inductive Reject where
  /-- state codes 11 to 15 -/
  | unusedStateCode
  /-- result code 7 -/
  | unusedResultCode
  /-- phase code 7 -/
  | unusedPhaseCode
  /-- a result word with `res_valid` 0: no completion (DESIGN CHOICE, log entry 23) -/
  | resultNotValid
  /-- a result word with bits 15:14 not 0 -/
  | resultHighBitsSet
  /-- PHY op 0 or 10 to 15 -/
  | phyOpNeverIssued
  /-- an unused argument bit of a PHY request set, or a pattern enum above 4 -/
  | phyArgNeverDriven
  /-- AUX `len` 0 or 17 to 31 -/
  | auxLenNeverDriven
  /-- a data byte at `k >= len`, or of a read, not 0 -/
  | auxDataNeverDriven
  /-- a byte that is not one of the five pattern bytes -/
  | notPatternByte
  /-- a byte that is not one of the four rate codes -/
  | notRateCode
  deriving DecidableEq, Repr

/-- The command word (R90, R91); bit 7 is tested first, then `op` (R270). Every word decodes: a `TRAIN`
whose lanes are not 1, 2 or 4 is still a `TRAIN`, refused when it is accepted (R133). -/
def decodeCmd (w : BitVec 8) : Instr :=
  if w.getLsbD 7 then .illegalBit7 (w.extractLsb' 0 7)
  else if w.extractLsb' 0 2 = 0 then .illegalOp0 (w.extractLsb' 2 5)
  else if w.extractLsb' 0 2 = 1 then .train (w.extractLsb' 2 2) (w.extractLsb' 4 3)
  else if w.extractLsb' 0 2 = 2 then .checkHealth (w.extractLsb' 2 5)
  else .illegalOp3 (w.extractLsb' 2 5)

/-- The state code (R95). -/
def decodeSt (w : BitVec 4) : Except Reject Instr :=
  if w = 0 then .ok .stIdle else if w = 1 then .ok .stCapNeg else if w = 2 then .ok .stPhySetup
  else if w = 3 then .ok .stClockRecovery else if w = 4 then .ok .stReduceLinkRate
  else if w = 5 then .ok .stEqualizationSetup else if w = 6 then .ok .stEqualization
  else if w = 7 then .ok .stSuccess else if w = 8 then .ok .stFailed
  else if w = 9 then .ok .stLinkUnplugged else if w = 10 then .ok .stHealthCheck
  else .error .unusedStateCode

/-- The result with a given code (R93). -/
def resInstr (code : BitVec 3) (op : BitVec 2) (phase : Phase) (rate : RateIdx) (lanes : LaneCount) :
    Except Reject Instr :=
  if code = 0 then .ok (.resOk op phase rate lanes)
  else if code = 1 then .ok (.resLinkUnplugged op phase rate lanes)
  else if code = 2 then .ok (.resTrainingExhausted op phase rate lanes)
  else if code = 3 then .ok (.resCapabilityMismatch op phase rate lanes)
  else if code = 4 then .ok (.resAuxTransportError op phase rate lanes)
  else if code = 5 then .ok (.resRetrainRequired op phase rate lanes)
  else if code = 6 then .ok (.resBadCommand op phase rate lanes)
  else .error .unusedResultCode

/-- The result word (R92). -/
def decodeRes (w : BitVec 16) : Except Reject Instr :=
  if w.getLsbD 0 = false then .error .resultNotValid
  else if w.extractLsb' 14 2 ≠ 0 then .error .resultHighBitsSet
  else match Phase.ofCode (w.extractLsb' 6 3) with
    | none => .error .unusedPhaseCode
    | some p => resInstr (w.extractLsb' 3 3) (w.extractLsb' 1 2) p (w.extractLsb' 9 2) (w.extractLsb' 11 3)

/-- The phase code (R94). -/
def decodePhase (w : BitVec 3) : Except Reject Instr :=
  if w = 0 then .ok .phaseNone else if w = 1 then .ok .phaseCapNeg
  else if w = 2 then .ok .phasePhySetup else if w = 3 then .ok .phaseCr
  else if w = 4 then .ok .phaseEqSetup else if w = 5 then .ok .phaseEq
  else if w = 6 then .ok .phaseHealth else .error .unusedPhaseCode

/-- An instruction whose unused argument bits are 0 (R108). -/
def whenArgClear (clear : Bool) (i : Instr) : Except Reject Instr :=
  if clear then .ok i else .error .phyArgNeverDriven

/-- A PHY argument taken apart (R108). -/
def decodePhyArg (op : BitVec 4) (arg : BitVec 16) : Except Reject Instr :=
  if op = 1 then whenArgClear (arg.extractLsb' 1 15 == 0) (.phyReset (arg.getLsbD 0))
  else if op = 2 then whenArgClear (arg.extractLsb' 2 14 == 0) (.phySetLinkRate (arg.extractLsb' 0 2))
  else if op = 3 then whenArgClear (arg.extractLsb' 3 13 == 0) (.phySetLaneCount (arg.extractLsb' 0 3))
  else if op = 4 then whenArgClear (arg == 0) .phyModeSetting
  else if op = 5 then whenArgClear (arg == 0) .phyPostInit
  else if op = 6 then whenArgClear (arg == 0) .phyWaitPllLock
  else if op = 7 then .ok (.phySetVoltPe (unpackLevels arg 0) (unpackLevels arg 8))
  else if op = 8 then match Pattern.ofCode (arg.extractLsb' 0 3) with
    | none => .error .phyArgNeverDriven
    | some p => whenArgClear (arg.extractLsb' 3 13 == 0) (.phySetPattern p)
  else if op = 9 then whenArgClear (arg.extractLsb' 1 15 == 0) (.phySetEnhFrame (arg.getLsbD 0))
  else .error .phyOpNeverIssued

/-- The PHY request (R108). -/
def decodePhyReq (w : BitVec 20) : Except Reject Instr :=
  decodePhyArg (w.extractLsb' 0 4) (w.extractLsb' 4 16)

/-- AUX request fields made an instruction; lengths 0 and 17 to 31 and stray data are never driven
(R107, R112). -/
def auxInstr (rw : Bool) (addr : Addr) (len : BitVec 5) (data : BitVec 128) : Except Reject Instr :=
  if len.toNat = 0 ∨ 16 < len.toNat then .error .auxLenNeverDriven
  else if rw then
    if data >>> (8 * len.toNat) = 0 then .ok (.auxWr addr len data) else .error .auxDataNeverDriven
  else if data = 0 then .ok (.auxRd addr len) else .error .auxDataNeverDriven

/-- The AUX request (R107). -/
def decodeAuxReq (w : BitVec auxReqWidth) : Except Reject Instr :=
  let a := Config.shape.dpcdAddrWidth
  auxInstr (w.getLsbD 0) (w.extractLsb' 1 a) (w.extractLsb' (1 + a) 5) (w.extractLsb' (6 + a) 128)

/-- The byte of `TRAINING_PATTERN_SET` (R98). -/
def decodeTpset (P : Params) (w : Byte) : Except Reject Instr :=
  if w = P.tpsetNormal then .ok .tpsetNormal else if w = P.tpsetTps1 then .ok .tpsetTps1
  else if w = P.tpsetTps2 then .ok .tpsetTps2 else if w = P.tpsetTps3 then .ok .tpsetTps3
  else if w = P.tpsetTps4 then .ok .tpsetTps4 else .error .notPatternByte

/-- The byte of `LINK_BW_SET` (R96). -/
def decodeRate (P : Params) (w : Byte) : Except Reject Instr :=
  match rateIndex P w with
  | none => .error .notRateCode
  | some r => .ok (if r = 0 then .rate162 else if r = 1 then .rate27 else if r = 2 then .rate54 else .rate81)

/-- The decoder, total on the words of every format, rejecting by name. -/
def decode : TableWord → Except Reject Instr
  | .cmd w => .ok (decodeCmd w)
  | .st w => decodeSt w
  | .res w => decodeRes w
  | .phase w => decodePhase w
  | .phyReq w => decodePhyReq w
  | .auxReq w => decodeAuxReq w
  | .dpcd102 w => decodeTpset Config.hw w
  | .dpcd100 w => decodeRate Config.hw w

/-- The format that a table word of `nbits` bits is read in. The table's eight formats are words of
eight different ports and registers and overlap as bare numbers. A width names one format, and the
8-bit word is the command word, the only word the block takes from outside (R79, R90).
DESIGN CHOICE (log entry 5). -/
def tableWordOf (nbits w : Nat) : Option TableWord :=
  if 2 ^ nbits ≤ w then none
  else if nbits = 8 then some (.cmd (BitVec.ofNat 8 w))
  else if nbits = 4 then some (.st (BitVec.ofNat 4 w))
  else if nbits = 3 then some (.phase (BitVec.ofNat 3 w))
  else if nbits = 16 then some (.res (BitVec.ofNat 16 w))
  else if nbits = 20 ∨ nbits = 24 then
    if w < 2 ^ 20 then some (.phyReq (BitVec.ofNat 20 w)) else none
  else if nbits = auxReqWidth ∨ nbits = (auxReqWidth + 7) / 8 * 8 then
    if w < 2 ^ auxReqWidth then some (.auxReq (BitVec.ofNat auxReqWidth w)) else none
  else none

/-- The instruction the decoder reads from a table word of `nbits` bits (log entry 5). -/
def decodeTableWord (nbits w : Nat) : Option Instr :=
  match tableWordOf nbits w with
  | none => none
  | some t => match decode t with
    | .ok i => some i
    | .error _ => none

/-! ### The encoder -/

/-- A result word of `Done` (R92). -/
def encodeRes (code : ResCode) (op : BitVec 2) (phase : Phase) (rate : RateIdx) (lanes : LaneCount) :
    TableWord :=
  .res (resWordOf 1 op code.code phase.code rate lanes)

/-- The word of an instruction, written from the encodings of 30_encoding.md. -/
def encode : Instr → TableWord
  | .train rate lanes => .cmd (cmdWord 0 lanes rate 1)
  | .checkHealth x => .cmd (0#1 ++ x ++ 2#2)
  | .illegalOp0 x => .cmd (0#1 ++ x ++ 0#2)
  | .illegalOp3 x => .cmd (0#1 ++ x ++ 3#2)
  | .illegalBit7 x => .cmd (1#1 ++ x)
  | .stIdle => .st Fsm.idle.code
  | .stCapNeg => .st Fsm.capNeg.code
  | .stPhySetup => .st Fsm.phySetup.code
  | .stClockRecovery => .st Fsm.clockRecovery.code
  | .stReduceLinkRate => .st Fsm.reduceLinkRate.code
  | .stEqualizationSetup => .st Fsm.equalizationSetup.code
  | .stEqualization => .st Fsm.equalization.code
  | .stSuccess => .st Fsm.success.code
  | .stFailed => .st Fsm.failed.code
  | .stLinkUnplugged => .st Fsm.linkUnplugged.code
  | .stHealthCheck => .st Fsm.healthCheck.code
  | .resOk op phase rate lanes => encodeRes .ok op phase rate lanes
  | .resLinkUnplugged op phase rate lanes => encodeRes .linkUnplugged op phase rate lanes
  | .resTrainingExhausted op phase rate lanes => encodeRes .trainingExhausted op phase rate lanes
  | .resCapabilityMismatch op phase rate lanes => encodeRes .capabilityMismatch op phase rate lanes
  | .resAuxTransportError op phase rate lanes => encodeRes .auxTransportError op phase rate lanes
  | .resRetrainRequired op phase rate lanes => encodeRes .retrainRequired op phase rate lanes
  | .resBadCommand op phase rate lanes => encodeRes .badCommand op phase rate lanes
  | .phaseNone => .phase Phase.none.code
  | .phaseCapNeg => .phase Phase.capNeg.code
  | .phasePhySetup => .phase Phase.phySetup.code
  | .phaseCr => .phase Phase.cr.code
  | .phaseEqSetup => .phase Phase.eqSetup.code
  | .phaseEq => .phase Phase.eq.code
  | .phaseHealth => .phase Phase.health.code
  | .phyReset a => .phyReq (phyReqWord .reset (argOfBit a))
  | .phySetLinkRate r => .phyReq (phyReqWord .setLinkRate (r.setWidth 16))
  | .phySetLaneCount n => .phyReq (phyReqWord .setLaneCount (n.setWidth 16))
  | .phyModeSetting => .phyReq (phyReqWord .modeSetting 0)
  | .phyPostInit => .phyReq (phyReqWord .postInit 0)
  | .phyWaitPllLock => .phyReq (phyReqWord .waitPllLock 0)
  | .phySetVoltPe sw pe => .phyReq (phyReqWord .setVoltPe (voltPeArg sw pe))
  | .phySetPattern p => .phyReq (phyReqWord .setPattern (p.code.setWidth 16))
  | .phySetEnhFrame e => .phyReq (phyReqWord .setEnhFrame (argOfBit e))
  | .auxRd addr len => .auxReq (auxReqWord 0 addr len 0)
  | .auxWr addr len data => .auxReq (auxReqWord 1 addr len data)
  | .tpsetNormal => .dpcd102 (tpsetByte Config.hw .normal)
  | .tpsetTps1 => .dpcd102 (tpsetByte Config.hw .tps1)
  | .tpsetTps2 => .dpcd102 (tpsetByte Config.hw .tps2)
  | .tpsetTps3 => .dpcd102 (tpsetByte Config.hw .tps3)
  | .tpsetTps4 => .dpcd102 (tpsetByte Config.hw .tps4)
  | .rate162 => .dpcd100 (rateCode Config.hw 0)
  | .rate27 => .dpcd100 (rateCode Config.hw 1)
  | .rate54 => .dpcd100 (rateCode Config.hw 2)
  | .rate81 => .dpcd100 (rateCode Config.hw 3)

end Sys2Proof
end

