-- ==== Sys2Proof/Machine/State.lean ====
section
/-! DEFINITION. The state of the machine as plain data: the registers of 10_state.md, the output
requests, the event trace (R60), the scripted inputs of the environment (R40), and its reset values
(R42). -/

namespace Sys2Proof.Machine

open Sys2Proof

/-- The command latch (R24). -/
structure CmdLatch where
  /-- `cmd_op` -/
  op : BitVec 2
  /-- `init_rate` -/
  rate : RateIdx
  /-- `init_lanes` -/
  lanes : LaneCount
  deriving DecidableEq, Repr

/-- The session registers (R25 to R32). -/
structure Session where
  /-- `cur_rate` (R25) -/
  curRate : RateIdx
  /-- `cur_lanes` (R26) -/
  curLanes : LaneCount
  /-- `cap_tps3` (R27) -/
  capTps3 : Bool
  /-- `cap_tps4` (R27) -/
  capTps4 : Bool
  /-- `cap_efc` (R27) -/
  capEfc : Bool
  /-- `rd_interval` (R28) -/
  rdInterval : BitVec 7
  /-- `phase` (R29) -/
  phase : Phase
  /-- `cr_stall_cnt` (R30) -/
  crStallCnt : BitVec 3
  /-- `eq_retry_cnt` (R31) -/
  eqRetryCnt : BitVec 3
  /-- `total_retry_cnt` (R32) -/
  totalRetryCnt : BitVec 4
  deriving DecidableEq, Repr

/-- One entry of the lane file (R33, R34). -/
structure Lane where
  /-- `sw[i]` -/
  sw : Level
  /-- `pe[i]` -/
  pe : Level
  /-- `sw_rep[i]` -/
  swRep : BitVec 3
  /-- `pe_rep[i]` -/
  peRep : BitVec 3
  deriving DecidableEq, Repr

/-- The result registers (R36). -/
structure ResultRegs where
  /-- `res_valid` -/
  valid : Bool
  /-- `res_op` -/
  op : BitVec 2
  /-- `res_code` -/
  code : ResCode
  /-- `res_phase` -/
  phase : Phase
  /-- `res_rate` -/
  rate : RateIdx
  /-- `res_lanes` -/
  lanes : LaneCount
  deriving DecidableEq, Repr

/-- The request outputs and `done` (R37, R42). An output port holds its request word while the request
is outstanding; `*_req_valid` is 1 exactly then (R65, R72, R74; log entry 19). -/
structure Outputs where
  /-- `done` (R37) -/
  done : Bool
  /-- `aux_req_valid` with `aux_req[153:0]` (R107) -/
  auxReq : Option (BitVec auxReqWidth)
  /-- `phy_req_valid` with `phy_req[19:0]` (R108) -/
  phyReq : Option (BitVec 20)
  /-- `wait_req_valid` with `wait_us[19:0]` (R110) -/
  waitReq : Option (BitVec 20)
  deriving DecidableEq, Repr

/-- A response of the AUX transport (R65, R107). -/
structure AuxRsp where
  /-- `aux_rsp_err` -/
  err : Bool
  /-- `aux_rdata`, byte `k` in bits `8k+7:8k` -/
  data : BitVec 128
  deriving DecidableEq, Repr

/-- A sample of the PHY status inputs (R73, R109). -/
structure PhySample where
  /-- `phy_cur_rate_code[7:0]` -/
  rateCode : Byte
  /-- `phy_cur_lanes[2:0]` -/
  lanes : LaneCount
  /-- `pipe_active` -/
  pipeActive : Bool
  deriving DecidableEq, Repr

/-- The inputs, scripted: what the environment will answer, oldest first. No rule places a law on them
(R40, R64): a statement about every state is a statement about every environment (log entries 2, 4, 17). -/
structure Env where
  /-- `rst_n` (R290): false while reset is asserted. -/
  rstN : Bool
  /-- Command words the caller presents, one at a time (R90): `cmd_valid` is 1 while the list is not
  empty, and `cmd_word` is its head. -/
  cmds : List (BitVec 8)
  /-- Responses of the AUX transport (R65). -/
  auxRsps : List AuxRsp
  /-- How many `phy_ack` will come (R72). -/
  phyAcks : Nat
  /-- Samples of the PHY status inputs (R73). -/
  phySamples : List PhySample
  /-- How many `wait_done` will come (R74). -/
  waitDones : Nat
  /-- Samples of `unplugged` at the polls (R75). -/
  unplugs : List Bool
  deriving DecidableEq, Repr

/-- The MODEL's own field (log entry 3): the answers that the unfinished action of `st` has already
received. They say how far inside the action the block waits. -/
structure Held where
  /-- AUX responses received -/
  aux : List AuxRsp
  /-- PHY acknowledgements received -/
  acks : Nat
  /-- PHY status samples taken -/
  samples : List PhySample
  /-- waits ended -/
  waits : Nat
  /-- polls taken -/
  polls : List Bool
  deriving DecidableEq, Repr

/-- One entry of the trace (R60). A transaction enters it when its answer comes (DESIGN CHOICE, log entry
24). -/
inductive Event where
  /-- A command word was accepted. -/
  | cmd (w : BitVec 8)
  /-- One attempt of an AUX read: `none` is `err`, else the `len` bytes. -/
  | auxRd (addr : Addr) (len : Nat) (answer : Option (List Byte))
  /-- One attempt of an AUX write: `ok` or not. -/
  | auxWr (addr : Addr) (bytes : List Byte) (ok : Bool)
  /-- A PHY operation, acknowledged. -/
  | phy (op : PhyOpc) (arg : BitVec 16)
  /-- A PHY status sample. -/
  | phyRd (sample : PhySample)
  /-- A wait of at least `us` microseconds, ended. -/
  | wait (us : BitVec 20)
  /-- An unplug poll. -/
  | poll (unplugged : Bool)
  /-- A completion, with the result registers it wrote. -/
  | done (res : ResultRegs)
  deriving DecidableEq, Repr

/-- The state of the machine. -/
structure State where
  /-- `st` (R21), the block's program counter -/
  st : Fsm
  /-- the command latch (R24) -/
  cmd : CmdLatch
  /-- the session registers (R25 to R32) -/
  ses : Session
  /-- the lane file (R33, R34) -/
  lanes : Lanes Lane
  /-- the result registers (R36) -/
  res : ResultRegs
  /-- the code with which `Failed` was entered (R264) -/
  failCode : FailCode
  /-- `aux_try` (R43) -/
  auxTry : BitVec 3
  /-- the outputs (R37, R42) -/
  out : Outputs
  /-- the environment's inputs (R40) -/
  env : Env
  /-- answers received by the unfinished action (log entry 3) -/
  held : Held
  /-- selects the next free value of a sampled wire (log entry 2) -/
  tick : Nat
  /-- the events made, oldest first (R60) -/
  trace : List Event
  deriving DecidableEq, Repr

/-- Why the machine stops with a fault. No rule of the spec stops the block: an expected or unexpected
protocol outcome ends the COMMAND with a result code (R260), and a missing answer leaves the block
waiting (R299). Hence no constructor; nothing raises a fault (safe). -/
inductive Fault where
  deriving DecidableEq, Repr

/-- Why a step gives no meaning. -/
inductive Refusal where
  /-- Raised by an arm of `exec` whose instruction has no meaning yet: none is left. Safe. -/
  | notModelled (mnemonic : String)
  /-- Raised by `step` if the fetched word is no instruction. No state reaches it: every command word
  and every state code decodes. Safe. -/
  | undecodable (why : Reject)
  deriving DecidableEq, Repr

/-- The outcome of an instruction. -/
abbrev Out := Host.Outcome State Fault Refusal

/-- The session registers after reset and at session start (R42). -/
def Session.reset : Session where
  curRate := 0
  curLanes := 0
  capTps3 := false
  capTps4 := false
  capEfc := false
  rdInterval := 0
  phase := .none
  crStallCnt := 0
  eqRetryCnt := 0
  totalRetryCnt := 0

/-- A lane-file entry after reset and after `LaneReset` (R42, R231). -/
def Lane.reset : Lane := ⟨0, 0, 0, 0⟩

/-- The result registers after reset (R42). -/
def ResultRegs.reset : ResultRegs := ⟨false, 0, .ok, .none, 0, 0⟩

/-- The outputs after reset (R42, R290). -/
def Outputs.reset : Outputs := ⟨false, none, none, none⟩

/-- No answer received yet by the action of `st`. -/
def Held.empty : Held := ⟨[], 0, [], 0, []⟩

/-- No input scripted, reset released (log entries 2, 4, 17). -/
def Env.quiet : Env := ⟨true, [], [], 0, [], 0, []⟩

/-- The machine right after reset (R42, R291). `failCode` is DESIGN CHOICE, unsafe (log entry 7). -/
def State.reset : State where
  st := .idle
  cmd := ⟨0, 0, 0⟩
  ses := Session.reset
  lanes := Lanes.replicate Lane.reset
  res := ResultRegs.reset
  failCode := .trainingExhausted
  auxTry := 0
  out := Outputs.reset
  env := Env.quiet
  held := Held.empty
  tick := 0
  trace := []

end Sys2Proof.Machine
end

