-- ==== Sys2Proof/Machine/Ops.lean ====
section
/-! DEFINITION. The shared operations: the primitives of 20_memory.md (`MemRead`, `MemWrite`, `PhyOp`,
`PhyStatus`, `Wait`, `PollUnplug`), session start, taking an exception, `Done`, and running an
action. -/

namespace Sys2Proof.Machine

open Sys2Proof

/-- The exceptions of the pseudocode (R260). `auxFail` names the address, which nothing records. -/
inductive Exn where
  | linkUnplugged | trainingExhausted | capabilityMismatch | auxFail (addr : Addr) | badCommand
  deriving DecidableEq, Repr

/-- Why an action does not run to its end: it raised an exception, or the answer it waits for has not
come (R299). -/
inductive Stop where
  | raised (e : Exn) | blocked
  deriving DecidableEq, Repr

/-- An action in progress: the state, and the answers received before (in an earlier step of the same
action) that it has not taken again yet (log entry 3). -/
structure Run where
  s : State
  replay : Held
  deriving DecidableEq, Repr

/-- A piece of a state action. -/
abbrev Act := EStateM Stop Run

/-! ### Registers inside an action -/

/-- The state as the action sees it now. -/
def getState : Act State := fun r => .ok r.s r

/-- A change of registers. -/
def modifyState (f : State → State) : Act Unit := fun r => .ok () { r with s := f r.s }

/-- `raise e`: abandons the rest of the action (R271, R272). -/
def raise {α : Type} (e : Exn) : Act α := throw (.raised e)

/-- `phase <- p` (R29). -/
def setPhase (p : Phase) (s : State) : State := { s with ses.phase := p }

/-- `st <- x` (R21). -/
def goTo (x : Fsm) (s : State) : State := { s with st := x }

/-- One more event (R60). -/
def emit (e : Event) (s : State) : State := { s with trace := s.trace ++ [e] }

/-! ### The ports -/

/-- A request on the AUX port (R65). -/
inductive AuxReq where
  | read (addr : Addr) (len : Nat)
  | write (addr : Addr) (bytes : List Byte)
  deriving DecidableEq, Repr

/-- The sink address a request names. -/
def AuxReq.addr : AuxReq → Addr
  | .read a _ => a
  | .write a _ => a

/-- The word driven on `aux_req[153:0]` (R107). -/
def AuxReq.word : AuxReq → BitVec auxReqWidth
  | .read a n => auxReqWord 0 a (BitVec.ofNat 5 n) 0
  | .write a v => auxReqWord 1 a (BitVec.ofNat 5 v.length) (packBytes v)

/-- The event of an answered attempt (R60). An attempt without a response makes none (DESIGN CHOICE, log
entry 24). -/
def AuxReq.event (q : AuxReq) (a : AuxRsp) : Event :=
  match q with
  | .read addr n => .auxRd addr n (if a.err then none else some (dataBytes a.data n))
  | .write addr v => .auxWr addr v (!a.err)

/-- One AUX attempt: the request is held until its response (R65); without a response the block waits
with the request outstanding (R299). The event is made with the response, so a request that is never
answered, or that reset drops, is no event (DESIGN CHOICE, log entry 24). -/
def auxRequest (q : AuxReq) : Act AuxRsp := fun r =>
  match r.replay.aux with
  | a :: rest => .ok a { r with replay.aux := rest }
  | [] => match r.s.env.auxRsps with
    | [] => .error .blocked { r with s.out.auxReq := some q.word }
    | a :: rest =>
      .ok a { r with s := emit (q.event a) { r.s with
        out.auxReq := none, env.auxRsps := rest, held.aux := r.s.held.aux ++ [a] } }

/-- `PhyOp(op, arg)`: returns when the acknowledgement arrives (R72). The event is made with the
acknowledgement (DESIGN CHOICE, log entry 24). -/
def phyOp (op : PhyOpc) (arg : BitVec 16) : Act Unit := fun r =>
  match r.replay.acks with
  | n + 1 => .ok () { r with replay.acks := n }
  | 0 => match r.s.env.phyAcks with
    | 0 => .error .blocked { r with s.out.phyReq := some (phyReqWord op arg) }
    | n + 1 =>
      .ok () { r with s := emit (.phy op arg) { r.s with
        out.phyReq := none, env.phyAcks := n, held.acks := r.s.held.acks + 1 } }

/-- `Wait(us)`: returns when the timer says done (R74). The duration is not modelled (U2). The event is
made when the wait ends (DESIGN CHOICE, log entry 24). -/
def waitUs (us : BitVec 20) : Act Unit := fun r =>
  match r.replay.waits with
  | n + 1 => .ok () { r with replay.waits := n }
  | 0 => match r.s.env.waitDones with
    | 0 => .error .blocked { r with s.out.waitReq := some us }
    | n + 1 =>
      .ok () { r with s := emit (.wait us) { r.s with
        out.waitReq := none, env.waitDones := n, held.waits := r.s.held.waits + 1 } }

/-- A sample from its twelve wires, high to low `pipe_active`, lanes, rate code (R109). -/
def phySampleOf (w : BitVec 12) : PhySample :=
  ⟨w.extractLsb' 0 8, w.extractLsb' 8 3, w.getLsbD 11⟩

/-- The next sample of the PHY status inputs: the scripted one, else a free value (log entry 2). -/
def nextPhySample (s : State) : PhySample × State :=
  match s.env.phySamples with
  | p :: rest => (p, { s with env.phySamples := rest })
  | [] => (phySampleOf (Config.freePhyStatus s.tick), { s with tick := s.tick + 1 })

/-- `PhyStatus()`: one sample of three inputs (R73). -/
def phyStatus : Act PhySample := fun r =>
  match r.replay.samples with
  | p :: rest => .ok p { r with replay.samples := rest }
  | [] =>
    let (p, s) := nextPhySample r.s
    .ok p { r with s := emit (.phyRd p) { s with held.samples := s.held.samples ++ [p] } }

/-- The next sample of `unplugged`: the scripted one, else a free value (log entry 2). -/
def nextUnplug (s : State) : Bool × State :=
  match s.env.unplugs with
  | b :: rest => (b, { s with env.unplugs := rest })
  | [] => (Config.freeUnplugged s.tick, { s with tick := s.tick + 1 })

/-- `PollUnplug()`: one sample of the wire `unplugged` (R75). -/
def pollUnplug : Act Bool := fun r =>
  match r.replay.polls with
  | b :: rest => .ok b { r with replay.polls := rest }
  | [] =>
    let (b, s) := nextUnplug r.s
    .ok b { r with s := emit (.poll b) { s with held.polls := s.held.polls ++ [b] } }

/-- A poll point (R268): unplugged raises `LinkUnplugged`. -/
def pollPoint : Act Unit := do
  let b ← pollUnplug
  if b then raise .linkUnplugged else pure ()

/-! ### The DPCD primitives -/

/-- The retry loop of R66 and R67 with `left` retries left: an attempt that answers `err` is followed
by a back-off wait and another attempt, and the last failure raises `AuxFail`. -/
def auxLoop (P : Params) (q : AuxReq) : Nat → Act AuxRsp
  | 0 => do
    let a ← auxRequest q
    if a.err then raise (.auxFail q.addr) else pure a
  | left + 1 => do
    let a ← auxRequest q
    if a.err then do
      modifyState fun s => { s with auxTry := s.auxTry + 1 }
      waitUs (BitVec.ofNat 20 P.auxBackoffUs)
      auxLoop P q left
    else pure a

/-- One AUX transaction with its retries: `aux_try` starts at 0 (R43). -/
def auxTransaction (P : Params) (q : AuxReq) : Act AuxRsp := do
  modifyState fun s => { s with auxTry := 0 }
  auxLoop P q P.auxRetryMax

/-- `MemRead(addr, n)` (R66). -/
def memRead (P : Params) (addr : Addr) (n : Nat) : Act (List Byte) := do
  let a ← auxTransaction P (.read addr n)
  pure (dataBytes a.data n)

/-- `MemWrite(addr, n, v)` with `n` the length of `v` (R67). -/
def memWrite (P : Params) (addr : Addr) (v : List Byte) : Act Unit := do
  let _ ← auxTransaction P (.write addr v)
  pure ()

/-- `try a catch AuxFail: nothing` (R264, R274). -/
def swallowAuxFail (a : Act Unit) : Act Unit := fun r =>
  match a r with
  | .error (.raised (.auxFail _)) r' => .ok () r'
  | x => x

/-! ### Writes the actions share -/

/-- The write of one training-pattern byte (R70, R98). -/
def writePatternByte (P : Params) (p : Pattern) : Act Unit :=
  memWrite P P.addrTrainingPatternSet [tpsetByte P p]

/-- `PhyOp(PHY_SET_PATTERN, p)` (R108). -/
def phySetPatternOp (p : Pattern) : Act Unit := phyOp .setPattern (p.code.setWidth 16)

/-- `LANE_COUNT_SET`: the lane count with the enhanced-frame bit (R100). -/
def laneCountSetByte (P : Params) (lanes : LaneCount) (efc : Bool) : Byte :=
  lanes.setWidth 8 ||| ((BitVec.ofBool efc).setWidth 8 <<< P.lcsEfcBit)

/-- The link configuration write: one 2-byte burst at `LINK_BW_SET` (R163). -/
def writeLinkConfig (P : Params) (rate : RateIdx) : Act Unit := do
  let s ← getState
  memWrite P P.addrLinkBwSet
    [rateCode P rate, laneCountSetByte P s.ses.curLanes s.ses.capEfc]

/-! ### Session start, completion, exceptions -/

/-- `LaneReset()` (R231). -/
def laneReset (s : State) : State := { s with lanes := Lanes.replicate Lane.reset }

/-- `SessionInit()` (R137): the reset value into every session register and lane-file entry. -/
def sessionInit (s : State) : State := laneReset { s with ses := Session.reset }

/-- A completion with a given result (R136): the result registers, the event, `st <- Idle`, `done`. -/
def completeWith (res : ResultRegs) (s : State) : State :=
  emit (.done res) { s with res := res, st := .idle, out.done := true }

/-- `Done(code)` (R136): there is no other return from a command or from an exception (R273). -/
def doneCmd (code : ResCode) (s : State) : State :=
  completeWith ⟨true, s.cmd.op, code, s.ses.phase, s.ses.curRate, s.ses.curLanes⟩ s

/-- The result code of a pending code of `Failed` (R264). -/
def failResult : FailCode → ResCode
  | .trainingExhausted => .trainingExhausted
  | .capabilityMismatch => .capabilityMismatch
  | .auxTransportError => .auxTransportError

/-- Entering `Failed` with a pending code (R264). -/
def enterFailed (c : FailCode) (s : State) : State := { s with st := .failed, failCode := c }

/-- TAKING AN EXCEPTION (R260, R271): `st` goes to the state of R260's column and nothing is saved;
`AuxFail` in a `CHECK_HEALTH` and `BadCommand` complete the command at once (R263, R266). -/
def takeException (e : Exn) (s : State) : State :=
  match e with
  | .linkUnplugged => goTo .linkUnplugged s
  | .trainingExhausted => enterFailed .trainingExhausted s
  | .capabilityMismatch => enterFailed .capabilityMismatch s
  | .auxFail _ =>
    if s.st = .healthCheck then doneCmd .auxTransportError s else enterFailed .auxTransportError s
  | .badCommand =>
    doneCmd .badCommand { s with ses.phase := .none, ses.curRate := 0, ses.curLanes := 0 }

/-! ### Running an action -/

/-- The action is over: no answer is held for it any more. -/
def endAction (s : State) : State := { s with held := Held.empty }

/-- No request driven: an action that waits for an answer drives its request again (R65). -/
def dropRequests (s : State) : State :=
  { s with out.auxReq := none, out.phyReq := none, out.waitReq := none }

/-- One step of the block: an action run to its end, to the exception it raises, or to the answer that
has not come (R5, R76, R299). A block that waits keeps the answers it has (log entry 3): its next step
takes them again without a new event and goes on from where it waits. -/
def runAction (a : Act Unit) (s : State) : Out :=
  match a ⟨dropRequests s, s.held⟩ with
  | .ok _ r => .next (endAction r.s)
  | .error (.raised e) r => .next (endAction (takeException e r.s))
  | .error .blocked r => .next r.s

/-- The action of an FSM state: during it `st` holds that state's code (R21). -/
def runState (x : Fsm) (a : Act Unit) (s : State) : Out := runAction a (goTo x s)

/-- A request of the block is outstanding: it waits for the answer (R76, R299). -/
def State.waiting (s : State) : Bool :=
  s.out.auxReq.isSome || s.out.phyReq.isSome || s.out.waitReq.isSome

/-! ### Reset and the outputs -/

/-- The block held in reset (R290 to R292): every register at its reset value, no request, no `done`.
The inputs and the record of events are not the block's: they stay (log entry 17). -/
def blockReset (s : State) : State :=
  { State.reset with env := s.env, tick := s.tick, trace := s.trace }

/-- `busy` (R23). -/
def State.busy (s : State) : Bool := s.st != .idle

/-- `cmd_ready` (R23). -/
def State.cmdReady (s : State) : Bool := !s.busy

/-- `aux_req_valid` (R65). -/
def State.auxReqValid (s : State) : Bool := s.out.auxReq.isSome

/-- `phy_req_valid` (R72). -/
def State.phyReqValid (s : State) : Bool := s.out.phyReq.isSome

/-- `wait_req_valid` (R74). -/
def State.waitReqValid (s : State) : Bool := s.out.waitReq.isSome

/-- `st_dbg[3:0]` (R95). -/
def State.stDbg (s : State) : BitVec 4 := s.st.code

/-- The result registers packed (R92). -/
def ResultRegs.word (r : ResultRegs) : BitVec 16 :=
  resWordOf (BitVec.ofBool r.valid) r.op r.code.code r.phase.code r.rate r.lanes

/-- `res_word[15:0]` (R92). -/
def State.resWord (s : State) : BitVec 16 := s.res.word

/-- An AUX response from `aux_rsp[128:0]` (R107). -/
def auxRspOf (w : BitVec 129) : AuxRsp := ⟨w.getLsbD 0, w.extractLsb' 1 128⟩

/-- The byte that the last AUX write event covering an address carried, and whether it was answered
`ok` (R68, R70). `none`: the block has not written the address. What the sink holds is the sink's
(R64, R67): this is only what the block told it. -/
def lastWrite (a : Nat) : List Event → Option (Byte × Bool)
  | [] => none
  | e :: es => match lastWrite a es with
    | some x => some x
    | none => match e with
      | .auxWr addr bytes ok =>
        if addr.toNat ≤ a ∧ a < addr.toNat + bytes.length then
          some (bytes.getD (a - addr.toNat) 0, ok) else none
      | _ => none

end Sys2Proof.Machine
end

