-- ==== Sys2Proof/Machine/Command.lean ====
section
/-! DEFINITION. The five rows of format CMD: accepting a command word in `Idle` (R130 to R135). -/

namespace Sys2Proof.Machine

open Sys2Proof

/-- Latching an accepted word: event `CMD`, then `cmd_op`, `init_rate`, `init_lanes` (R24, R130). -/
def latchCommand (w : BitVec 8) (s : State) : State :=
  emit (.cmd w) { s with cmd := ⟨w.extractLsb' 0 2, w.extractLsb' 2 2, w.extractLsb' 4 3⟩ }

/-- A command word is accepted only while the block is idle; while `busy` nothing is latched and no
event is made (R135). -/
def acceptWord (w : BitVec 8) (k : State → State) (s : State) : Out :=
  .next (if s.st = .idle then k (latchCommand w s) else s)

/-- Starting a session in a state (R130, R137). -/
def startSession (x : Fsm) (s : State) : State := goTo x (sessionInit s)

/-- The pseudocode of R130, on the raw word: what acceptance does in `Idle`. -/
def accept (w : BitVec 8) (s : State) : State :=
  let s := latchCommand w s
  if w.getLsbD 7 ∨ w.extractLsb' 0 2 = 0 ∨ w.extractLsb' 0 2 = 3 then takeException .badCommand s
  else if w.extractLsb' 0 2 = 1 then
    if lanesLegal (w.extractLsb' 4 3).toNat then startSession .capNeg s
    else takeException .badCommand s
  else startSession .healthCheck s

/-- `TRAIN` (R131): lanes other than 1, 2 and 4 are refused (R133). -/
def execTrain (rate : RateIdx) (lanes : LaneCount) (s : State) : Out :=
  acceptWord (cmdWord 0 lanes rate 1)
    (if lanesLegal lanes.toNat then startSession .capNeg else takeException .badCommand) s

/-- `CHECK_HEALTH` (R132): bits 6:2 are latched with the word and have no effect. -/
def execCheckHealth (ignored : BitVec 5) (s : State) : Out :=
  acceptWord (0#1 ++ ignored ++ 2#2) (startSession .healthCheck) s

/-- `op` 0: `BadCommand` (R133, R266). -/
def execIllegalOp0 (x : BitVec 5) (s : State) : Out :=
  acceptWord (0#1 ++ x ++ 0#2) (takeException .badCommand) s

/-- `op` 3: `BadCommand` (R133, R266). -/
def execIllegalOp3 (x : BitVec 5) (s : State) : Out :=
  acceptWord (0#1 ++ x ++ 3#2) (takeException .badCommand) s

/-- Bit 7 set: `BadCommand` (R133, R266). -/
def execIllegalBit7 (x : BitVec 7) (s : State) : Out :=
  acceptWord (1#1 ++ x) (takeException .badCommand) s

end Sys2Proof.Machine
end

