-- ==== Sys2Proof/Machine/Dpcd.lean ====
section
/-! DEFINITION. The rows of formats AUXREQ, DPCD102 and DPCD100: the DPCD primitives with their
retries (R66, R67), the five writes of `TRAINING_PATTERN_SET` (R98) and the link configuration write
at each of the four rates (R96, R99, R163). -/

namespace Sys2Proof.Machine

open Sys2Proof

/-- `AUX_RD`: the whole primitive `MemRead(addr, len)` (R66). The bytes stand in the trace. -/
def execAuxRd (addr : Addr) (len : BitVec 5) (s : State) : Out :=
  runAction (do let _ ← memRead Config.hw addr len.toNat; pure ()) s

/-- `AUX_WR`: the whole primitive `MemWrite(addr, len, v)` (R67). -/
def execAuxWr (addr : Addr) (len : BitVec 5) (data : BitVec 128) (s : State) : Out :=
  runAction (memWrite Config.hw addr (dataBytes data len.toNat)) s

/-- `TPSET_NORMAL`: the write of 0x00 (R98; DEDUCED, log entry 10). -/
def execTpsetNormal (s : State) : Out := runAction (writePatternByte Config.hw .normal) s

/-- `TPSET_TPS1`: the write of 0x21 (R98, R164). -/
def execTpsetTps1 (s : State) : Out := runAction (writePatternByte Config.hw .tps1) s

/-- `TPSET_TPS2`: the write of 0x22 (R98, R195). -/
def execTpsetTps2 (s : State) : Out := runAction (writePatternByte Config.hw .tps2) s

/-- `TPSET_TPS3`: the write of 0x23 (R98, R195). -/
def execTpsetTps3 (s : State) : Out := runAction (writePatternByte Config.hw .tps3) s

/-- `TPSET_TPS4`: the write of 0x07 (R98, R195). -/
def execTpsetTps4 (s : State) : Out := runAction (writePatternByte Config.hw .tps4) s

/-- `RATE_1_62`: the link configuration write with code 0x06 (R96, R163; DEDUCED, log entry 10). -/
def execRate162 (s : State) : Out := runAction (writeLinkConfig Config.hw 0) s

/-- `RATE_2_7`: the link configuration write with code 0x0A (R96, R163). -/
def execRate27 (s : State) : Out := runAction (writeLinkConfig Config.hw 1) s

/-- `RATE_5_4`: the link configuration write with code 0x14 (R96, R163). -/
def execRate54 (s : State) : Out := runAction (writeLinkConfig Config.hw 2) s

/-- `RATE_8_1`: the link configuration write with code 0x1E (R96, R163). -/
def execRate81 (s : State) : Out := runAction (writeLinkConfig Config.hw 3) s

end Sys2Proof.Machine
end

