-- ==== Sys2Proof/Machine/PhaseRow.lean ====
section
/-! DEFINITION. The seven rows of format PHASE: the first line of a state action, `phase <- ...` (R29,
R94; DEDUCED, log entry 9). -/

namespace Sys2Proof.Machine

open Sys2Proof

/-- `phase <- NONE` (R94, R137). -/
def execPhaseNone (s : State) : Out := .next (setPhase .none s)

/-- `phase <- CAPNEG` (R94, R150). -/
def execPhaseCapNeg (s : State) : Out := .next (setPhase .capNeg s)

/-- `phase <- PHYSETUP` (R94, R160). -/
def execPhasePhySetup (s : State) : Out := .next (setPhase .phySetup s)

/-- `phase <- CR` (R94, R170). -/
def execPhaseCr (s : State) : Out := .next (setPhase .cr s)

/-- `phase <- EQSETUP` (R94, R195). -/
def execPhaseEqSetup (s : State) : Out := .next (setPhase .eqSetup s)

/-- `phase <- EQ` (R94, R197). -/
def execPhaseEq (s : State) : Out := .next (setPhase .eq s)

/-- `phase <- HEALTH` (R94, R245). -/
def execPhaseHealth (s : State) : Out := .next (setPhase .health s)

end Sys2Proof.Machine
end

