-- ==== Sys2Proof/Machine/Phy.lean ====
section
/-! DEFINITION. The nine rows of format PHYREQ: one operation on the PHY port (R72, R108). -/

namespace Sys2Proof.Machine

open Sys2Proof

/-- `PHY_RESET` (R108). -/
def execPhyReset (assert : Bool) (s : State) : Out := runAction (phyOp .reset (argOfBit assert)) s

/-- `PHY_SET_LINK_RATE` (R108). -/
def execPhySetLinkRate (rate : RateIdx) (s : State) : Out :=
  runAction (phyOp .setLinkRate (rate.setWidth 16)) s

/-- `PHY_SET_LANE_COUNT` (R108). -/
def execPhySetLaneCount (lanes : LaneCount) (s : State) : Out :=
  runAction (phyOp .setLaneCount (lanes.setWidth 16)) s

/-- `PHY_MODE_SETTING` (R108). -/
def execPhyModeSetting (s : State) : Out := runAction (phyOp .modeSetting 0) s

/-- `PHY_POST_INIT` (R108). -/
def execPhyPostInit (s : State) : Out := runAction (phyOp .postInit 0) s

/-- `PHY_WAIT_PLL_LOCK` (R108): acknowledged when the PLL has locked, waited for without bound (R72,
R299). -/
def execPhyWaitPllLock (s : State) : Out := runAction (phyOp .waitPllLock 0) s

/-- `PHY_SET_VOLT_PE` (R108). -/
def execPhySetVoltPe (sw pe : Lanes Level) (s : State) : Out :=
  runAction (phyOp .setVoltPe (voltPeArg sw pe)) s

/-- `PHY_SET_PATTERN` (R108). -/
def execPhySetPattern (pattern : Pattern) (s : State) : Out := runAction (phySetPatternOp pattern) s

/-- `PHY_SET_ENH_FRAME` (R108). -/
def execPhySetEnhFrame (enable : Bool) (s : State) : Out :=
  runAction (phyOp .setEnhFrame (argOfBit enable)) s

end Sys2Proof.Machine
end

