-- ==== Sys2Proof/Machine/Result.lean ====
section
/-! DEFINITION. The seven rows of format RES: a command completes with the result word whose fields are
the operands (R92, R93, R136). `Done(code)` is the row of its code with the fields taken from
`cmd_op`, `phase`, `cur_rate` and `cur_lanes` (DEDUCED, log entry 8). -/

namespace Sys2Proof.Machine

open Sys2Proof

/-- A completion as an instruction of its own: the command is over. -/
def completeCommand (code : ResCode) (op : BitVec 2) (phase : Phase) (rate : RateIdx)
    (lanes : LaneCount) (s : State) : Out :=
  .next (endAction (completeWith ⟨true, op, code, phase, rate, lanes⟩ s))

/-- `RES_OK` (R93). -/
def execResOk (op : BitVec 2) (phase : Phase) (rate : RateIdx) (lanes : LaneCount) (s : State) : Out :=
  completeCommand .ok op phase rate lanes s

/-- `RES_LINK_UNPLUGGED` (R93, R265). -/
def execResLinkUnplugged (op : BitVec 2) (phase : Phase) (rate : RateIdx) (lanes : LaneCount)
    (s : State) : Out :=
  completeCommand .linkUnplugged op phase rate lanes s

/-- `RES_TRAINING_EXHAUSTED` (R93, R262). -/
def execResTrainingExhausted (op : BitVec 2) (phase : Phase) (rate : RateIdx) (lanes : LaneCount)
    (s : State) : Out :=
  completeCommand .trainingExhausted op phase rate lanes s

/-- `RES_CAPABILITY_MISMATCH` (R93, R261). -/
def execResCapabilityMismatch (op : BitVec 2) (phase : Phase) (rate : RateIdx) (lanes : LaneCount)
    (s : State) : Out :=
  completeCommand .capabilityMismatch op phase rate lanes s

/-- `RES_AUX_TRANSPORT_ERROR` (R93, R263). -/
def execResAuxTransportError (op : BitVec 2) (phase : Phase) (rate : RateIdx) (lanes : LaneCount)
    (s : State) : Out :=
  completeCommand .auxTransportError op phase rate lanes s

/-- `RES_RETRAIN_REQUIRED` (R93, R267). -/
def execResRetrainRequired (op : BitVec 2) (phase : Phase) (rate : RateIdx) (lanes : LaneCount)
    (s : State) : Out :=
  completeCommand .retrainRequired op phase rate lanes s

/-- `RES_BAD_COMMAND` (R93, R266). -/
def execResBadCommand (op : BitVec 2) (phase : Phase) (rate : RateIdx) (lanes : LaneCount)
    (s : State) : Out :=
  completeCommand .badCommand op phase rate lanes s

end Sys2Proof.Machine
end

