-- ==== Sys2Proof/Machine/Operands.lean ====
section
/-! DEFINITION. The sub-block `dpcd_status_parser` (R215 to R224) and the assembly of operands (R114).
Every function here is pure. -/

namespace Sys2Proof.Machine

open Sys2Proof

/-- Byte `k` of a burst (R68). A burst read for `n` bytes holds exactly `n`. -/
def burstByte (b : List Byte) (k : Nat) : Byte := b.getD k 0

/-! ### Active lanes -/

/-- A test of every lane in `active(n)`: the lanes below `n` (00_scope.md section 4). For `n` outside
1, 2 and 4 the spec does not call it (R223; log entry 14). -/
def allActive (n : Nat) (p : LaneIdx → Bool) : Bool :=
  (List.finRange Config.shape.maxLanes).all fun i => !decide (i.val < n) || p i

/-- `AllSet(v, n)` (R223). -/
def allSet (v : Lanes Bool) (n : Nat) : Bool := allActive n v.get

/-- A list of bits as a number, the first bit lowest. -/
def bitsToNat : List Bool → Nat
  | [] => 0
  | b :: bs => b.toNat + 2 * bitsToNat bs

/-- A lane vector of bits as a mask: `v[i]` is bit `i` (46_dpcd_status_parser.md). -/
def laneMask (v : Lanes Bool) : BitVec Config.shape.maxLanes :=
  BitVec.ofNat Config.shape.maxLanes (bitsToNat v.toList)

/-! ### Status bytes -/

/-- CR-done, Channel-EQ-done and Symbol-locked of one lane (R102). -/
structure LaneStatus where
  cr : Bool
  eq : Bool
  sl : Bool
  deriving DecidableEq, Repr

/-- The three lane vectors of a status read (R217). -/
structure LaneVecs where
  cr : Lanes Bool
  eq : Lanes Bool
  sl : Lanes Bool
  deriving DecidableEq, Repr

/-- A 3-byte status read (R219). -/
structure Status3 where
  lanes : LaneVecs
  /-- Interlane-Align-Done -/
  align : Bool
  /-- `LINK_STATUS_UPDATED` -/
  upd : Bool
  deriving DecidableEq, Repr

/-- The document's DpcdLinkStatus (R220). -/
structure Status6 where
  status : Status3
  sinkCountRaw : Byte
  deriving DecidableEq, Repr

/-- `LaneStatus(b, odd)` (R216). -/
def laneStatus (b : Byte) (odd : Nat) : LaneStatus :=
  ⟨b.getLsbD (4 * odd), b.getLsbD (4 * odd + 1), b.getLsbD (4 * odd + 2)⟩

/-- The status of lane `i`: byte `i >> 1`, half `i & 1` (R114, R217). -/
def laneStatusAt (s : List Byte) (i : LaneIdx) : LaneStatus :=
  laneStatus (burstByte s (i.val / 2)) (i.val % 2)

/-- `ParseLaneStatus2(s)` (R217). -/
def parseLaneStatus2 (s : List Byte) : LaneVecs where
  cr := Lanes.ofFn fun i => (laneStatusAt s i).cr
  eq := Lanes.ofFn fun i => (laneStatusAt s i).eq
  sl := Lanes.ofFn fun i => (laneStatusAt s i).sl

/-- `ParseAlign(b)`: (align, upd) (R218). -/
def parseAlign (P : Params) (b : Byte) : Bool × Bool :=
  (b.getLsbD P.alignDoneBit, b.getLsbD P.linkStatusUpdatedBit)

/-- `ParseStatus3(s)` (R219). -/
def parseStatus3 (P : Params) (s : List Byte) : Status3 where
  lanes := parseLaneStatus2 [burstByte s 0, burstByte s 1]
  align := (parseAlign P (burstByte s 2)).1
  upd := (parseAlign P (burstByte s 2)).2

/-- `ParseStatus6(s6)` (R220): called by no state. -/
def parseStatus6 (P : Params) (s6 : List Byte) : Status6 where
  status := parseStatus3 P [burstByte s6 2, burstByte s6 3, burstByte s6 4]
  sinkCountRaw := burstByte s6 0

/-! ### Adjust requests -/

/-- The requested swings and pre-emphases (R221). -/
structure AdjustReq where
  sw : Lanes Level
  pe : Lanes Level
  deriving DecidableEq, Repr

/-- `ParseAdjust(a)` (R104, R221). -/
def parseAdjust (a : List Byte) : AdjustReq where
  sw := Lanes.ofFn fun i => (burstByte a (i.val / 2)).extractLsb' (4 * (i.val % 2)) 2
  pe := Lanes.ofFn fun i => (burstByte a (i.val / 2)).extractLsb' (4 * (i.val % 2) + 2) 2

/-! ### Capabilities -/

/-- The outputs of `ParseCaps` (R222). -/
structure Caps where
  rateLegal : Bool
  maxRate : RateIdx
  maxLanes : BitVec 5
  lanesLegal : Bool
  tps3 : Bool
  efc : Bool
  tps4 : Bool
  rdInterval : BitVec 7
  deriving DecidableEq, Repr

/-- `ParseCaps(c)` (R105, R222). -/
def parseCaps (P : Params) (c : List Byte) : Caps where
  rateLegal := (rateIndex P (burstByte c P.capOffMaxRate)).isSome
  maxRate := (rateIndex P (burstByte c P.capOffMaxRate)).getD 0
  maxLanes := (burstByte c P.capOffMaxLanes &&& P.capLanesMask).setWidth 5
  lanesLegal := lanesLegal (burstByte c P.capOffMaxLanes &&& P.capLanesMask).toNat
  tps3 := (burstByte c P.capOffMaxLanes).getLsbD P.capTps3Bit
  efc := (burstByte c P.capOffMaxLanes).getLsbD P.capEfcBit
  tps4 := (burstByte c P.capOffTps4).getLsbD P.capTps4Bit
  rdInterval := (burstByte c P.capOffRdInterval &&& P.rdIntervalMask).setWidth 7

/-- The starting rate: the lower of the two indices (R153). -/
def startRate (init max : RateIdx) : RateIdx := if init.toNat ≤ max.toNat then init else max

/-- The starting lane count: the lower of the two numbers (R153). -/
def startLanes (init : LaneCount) (max : BitVec 5) : LaneCount :=
  if init.toNat ≤ max.toNat then init else max.setWidth 3

/-! ### Other operands -/

/-- The wait before a status read, in microseconds (R172). -/
def readIntervalUs (P : Params) (rdInterval : BitVec 7) : BitVec 20 :=
  BitVec.ofNat 20 (max (rdInterval.toNat * P.rdIntervalUnitUs) P.rdIntervalMinUs)

/-- `SelectEqPattern()` (R196). -/
def selectEqPattern (P : Params) (tps3 tps4 : Bool) : Pattern :=
  if tps4 && P.srcTps4Supported then .tps4
  else if tps3 && P.srcTps3Supported then .tps3 else .tps2

/-- The entry after a given one in a list of rates. -/
def rateAfter (r : RateIdx) : List RateIdx → Option RateIdx
  | a :: b :: rest => if a = r then some b else rateAfter r (b :: rest)
  | _ => none

/-- The next rate of `LADDER` below a rate; none below the last (R185, R186, R188). -/
def nextRate (P : Params) (r : RateIdx) : Option RateIdx := rateAfter r P.ladder

/-- The reprogramming condition of `PhySetup` (R161). -/
def phyDiffers (P : Params) (p : PhySample) (rate : RateIdx) (lanes : LaneCount) : Bool :=
  p.rateCode != rateCode P rate || p.lanes != lanes || !p.pipeActive

/-- The verdict of the health check on the four bytes and the PHY sample (R245 to R247). -/
def healthVerdict (P : Params) (b s : List Byte) (p : PhySample) : ResCode :=
  let n := burstByte b 1 &&& P.lcsLanesMask
  if (rateIndex P (burstByte b 0)).isNone || !lanesLegal n.toNat then .retrainRequired
  else if burstByte b 0 != p.rateCode || n != p.lanes.setWidth 8 then .retrainRequired
  else
    let t := parseStatus3 P s
    if t.upd && !(allSet t.lanes.cr n.toNat && allSet t.lanes.eq n.toNat &&
        allSet t.lanes.sl n.toNat && t.align) then .retrainRequired
    else .ok

end Sys2Proof.Machine
end

