-- ==== Sys2Proof/Machine/Terminal.lean ====
section
/-! DEFINITION. The actions of `Failed`, `LinkUnplugged` and `HealthCheck` (60_exceptions.md,
48_health_check.md). -/

namespace Sys2Proof.Machine

open Sys2Proof

/-- The action of `Failed` (R264): the courtesy write, whose `AuxFail` is swallowed (R274), then
`Done` with the pending code. -/
def failedAct (P : Params) : Act Unit := do
  swallowAuxFail (writePatternByte P .normal)
  modifyState fun s => doneCmd (failResult s.failCode) s

/-- The action of `LinkUnplugged` (R265): nothing but `Done`. -/
def linkUnpluggedAct : Act Unit := modifyState (doneCmd .linkUnplugged)

/-- The action of `HealthCheck` (R245): two reads, one PHY sample, the verdict. -/
def healthCheckAct (P : Params) : Act Unit := do
  modifyState (setPhase .health)
  let b ← memRead P P.addrLinkBwSet 2
  let t ← memRead P P.addrLane01Status 3
  let p ← phyStatus
  modifyState (doneCmd (healthVerdict P b t p))

/-- `ST_Failed` (R264). -/
def execStFailed (s : State) : Out := runState .failed (failedAct Config.hw) s

/-- `ST_LinkUnplugged` (R265). -/
def execStLinkUnplugged (s : State) : Out := runState .linkUnplugged linkUnpluggedAct s

/-- `ST_HealthCheck` (R245). -/
def execStHealthCheck (s : State) : Out := runState .healthCheck (healthCheckAct Config.hw) s

end Sys2Proof.Machine
end

