-- ==== Sys2Proof/Machine/Flags.lean ====
section
/-! DEFINITION. The max-reached flags of a lane and the lane-set byte that carries them (R35, R101,
R232, R233, R236). -/

namespace Sys2Proof.Machine

open Sys2Proof

/-- `max_sw[i]` (R35, R232): about repetition, not about the level. -/
def Lane.maxSw (P : Params) (l : Lane) : Bool := decide (P.maxReachThreshold ≤ l.swRep.toNat)

/-- `max_pe[i]` (R35, R232). -/
def Lane.maxPe (P : Params) (l : Lane) : Bool := decide (P.maxReachThreshold ≤ l.peRep.toNat)

/-- The four fields of a lane-set byte (R101). -/
structure LaneSet where
  sw : Level
  pe : Level
  maxSw : Bool
  maxPe : Bool
  deriving DecidableEq, Repr

/-- The lane-set byte of four fields (R233). -/
def laneSetEncode (P : Params) (f : LaneSet) : Byte :=
  (f.pe.setWidth 8 <<< 3) ||| f.sw.setWidth 8 |||
  ((BitVec.ofBool f.maxPe).setWidth 8 <<< P.lanesetMaxPeBit) |||
  ((BitVec.ofBool f.maxSw).setWidth 8 <<< P.lanesetMaxSwBit)

/-- The fields of a lane-set byte (R236). The block itself never decodes one. -/
def laneSetDecode (P : Params) (b : Byte) : LaneSet where
  sw := b.extractLsb' 0 2
  pe := b.extractLsb' 3 2
  maxSw := b.getLsbD P.lanesetMaxSwBit
  maxPe := b.getLsbD P.lanesetMaxPeBit

/-- The fields that a lane-file entry is written with (R101). -/
def Lane.fields (P : Params) (l : Lane) : LaneSet := ⟨l.sw, l.pe, l.maxSw P, l.maxPe P⟩

/-- `LaneSetByte(i)` (R233). -/
def Lane.setByte (P : Params) (l : Lane) : Byte := laneSetEncode P (l.fields P)

end Sys2Proof.Machine
end

