-- ==== Sys2Proof/Machine/Sequencer.lean ====
section
/-! DEFINITION. The sub-block `voltage_swing_preemphasis_sequencer` (R230 to R240). -/

namespace Sys2Proof.Machine

open Sys2Proof

/-- The next value of a repetition counter (R234). -/
def nextRep (P : Params) (same : Bool) (rep : BitVec 3) : BitVec 3 :=
  if same then BitVec.ofNat 3 (min (rep.toNat + 1) P.maxReachThreshold) else 0

/-- `Adopt` on one lane (R234): the comparisons use the values before the assignment. -/
def adoptLane (P : Params) (reqSw reqPe : Level) (l : Lane) : Lane where
  sw := reqSw
  pe := reqPe
  swRep := nextRep P (reqSw == l.sw) l.swRep
  peRep := nextRep P (reqPe == l.pe) l.peRep

/-- `Adopt(req_sw, req_pe)`: all `MAX_LANES` lanes (R234). -/
def adoptLanes (P : Params) (q : AdjustReq) (f : Lanes Lane) : Lanes Lane :=
  Lanes.ofFn fun i => adoptLane P (q.sw.get i) (q.pe.get i) (f.get i)

/-- `Adopt` on the state. -/
def adopt (P : Params) (q : AdjustReq) (s : State) : State :=
  { s with lanes := adoptLanes P q s.lanes }

/-- `AllMaxSwing(n)` (R237). -/
def allMaxSwing (P : Params) (f : Lanes Lane) (n : Nat) : Bool :=
  allActive n fun i => (f.get i).maxSw P

/-- `SameAsRequested(req_sw, req_pe, n)` (R238). -/
def sameAsRequested (q : AdjustReq) (f : Lanes Lane) (n : Nat) : Bool :=
  allActive n fun i => q.sw.get i == (f.get i).sw && q.pe.get i == (f.get i).pe

/-- The argument of `PHY_SET_VOLT_PE` for a lane file (R108, R235): levels only, no flags. -/
def lanesArg (f : Lanes Lane) : BitVec 16 := voltPeArg (f.map Lane.sw) (f.map Lane.pe)

/-- The lane-set bytes, lane 0 first (R235). -/
def laneSetBytes (P : Params) (f : Lanes Lane) : List Byte := (f.map (Lane.setByte P)).toList

/-- `ProgramLanes()` (R235): the PHY first, then the sink. -/
def programLanes (P : Params) : Act Unit := do
  let s ← getState
  phyOp .setVoltPe (lanesArg s.lanes)
  memWrite P P.addrTrainingLane0Set (laneSetBytes P s.lanes)

end Sys2Proof.Machine
end

