-- ==== Sys2Proof/Machine/Training.lean ====
section
/-! DEFINITION. The actions of the training states: `Idle`, `CapNeg`, `PhySetup`, `ClockRecovery`,
`ReduceLinkRate`, `EqualizationSetup`, `Equalization`, `Success` (files 40 to 45). Each action is the
pseudocode of its rule, line by line. -/

namespace Sys2Proof.Machine

open Sys2Proof

/-! ### CapNeg -/

/-- The registers that `CapNeg` latches from the capability burst (R150, R151). -/
def latchCaps (c : Caps) (s : State) : State :=
  { s with ses.capTps3 := c.tps3, ses.capTps4 := c.tps4, ses.capEfc := c.efc,
           ses.rdInterval := c.rdInterval }

/-- The starting pair (R153). -/
def latchStart (c : Caps) (s : State) : State :=
  { s with ses.curRate := startRate s.cmd.rate c.maxRate,
           ses.curLanes := startLanes s.cmd.lanes c.maxLanes }

/-- The action of `CapNeg` (R150). -/
def capNegAct (P : Params) : Act Unit := do
  modifyState (setPhase .capNeg)
  let c ← memRead P P.capAddr P.capLen
  let caps := parseCaps P c
  modifyState (latchCaps caps)
  if !caps.rateLegal || !caps.lanesLegal then raise .capabilityMismatch
  else modifyState fun s => goTo .phySetup (latchStart caps s)

/-! ### PhySetup -/

/-- The PHY block of `PhySetup`, in its order (R162). -/
def phyProgram (s : State) : Act Unit := do
  phyOp .reset (argOfBit true)
  phyOp .setLinkRate (s.ses.curRate.setWidth 16)
  phyOp .modeSetting 0
  phyOp .setLaneCount (s.ses.curLanes.setWidth 16)
  if s.ses.capEfc then phyOp .setEnhFrame (argOfBit true) else pure ()
  phyOp .reset (argOfBit false)
  phyOp .postInit 0
  phyOp .waitPllLock 0

/-- The action of `PhySetup` (R160). -/
def phySetupAct (P : Params) : Act Unit := do
  modifyState (setPhase .phySetup)
  pollPoint
  let p ← phyStatus
  let s ← getState
  if phyDiffers P p s.ses.curRate s.ses.curLanes then phyProgram s else pure ()
  writeLinkConfig P s.ses.curRate
  phySetPatternOp .tps1
  writePatternByte P .tps1
  modifyState (goTo .clockRecovery)

/-! ### ClockRecovery -/

/-- The wait before a status read (R172). -/
def waitReadInterval (P : Params) : Act Unit := do
  let s ← getState
  waitUs (readIntervalUs P s.ses.rdInterval)

/-- Adoption and the ceiling (R176), after the stall test. -/
def crAdopt (P : Params) (q : AdjustReq) (s : State) : State :=
  let s := adopt P q s
  let s := { s with ses.totalRetryCnt := s.ses.totalRetryCnt + 1 }
  goTo (if P.totalRetryMax ≤ s.ses.totalRetryCnt.toNat then .reduceLinkRate else .clockRecovery) s

/-- The end of a round once the adjust request is read (R175, R176). -/
def crAfterAdjust (P : Params) (q : AdjustReq) (s : State) : State :=
  if sameAsRequested q s.lanes s.ses.curLanes.toNat then
    if s.ses.crStallCnt.toNat = P.crStallMax then goTo .reduceLinkRate s
    else crAdopt P q { s with ses.crStallCnt := s.ses.crStallCnt + 1 }
  else crAdopt P q { s with ses.crStallCnt := 0 }

/-- The action of `ClockRecovery`: one round (R170). -/
def clockRecoveryAct (P : Params) : Act Unit := do
  modifyState (setPhase .cr)
  pollPoint
  programLanes P
  waitReadInterval P
  let b ← memRead P P.addrLane01Status 2
  let s ← getState
  if allSet (parseLaneStatus2 b).cr s.ses.curLanes.toNat then
    modifyState (goTo .equalizationSetup)
  else if allMaxSwing P s.lanes s.ses.curLanes.toNat then
    modifyState (goTo .reduceLinkRate)
  else do
    let a ← memRead P P.addrAdjustRequest 2
    modifyState (crAfterAdjust P (parseAdjust a))

/-! ### ReduceLinkRate -/

/-- One step down the ladder, to the rate `r` (R185 to R187). -/
def stepDown (r : RateIdx) (s : State) : State :=
  goTo .phySetup (laneReset { s with
    ses.curRate := r,
    ses.crStallCnt := 0, ses.eqRetryCnt := 0, ses.totalRetryCnt := 0 })

/-- The action of `ReduceLinkRate` (R185, R188): the next rate of `LADDER`, or the end of it. -/
def reduceLinkRateAct (P : Params) : Act Unit := do
  let s ← getState
  match nextRate P s.ses.curRate with
  | none => raise .trainingExhausted
  | some r => modifyState (stepDown r)

/-! ### EqualizationSetup, Equalization, Success -/

/-- The action of `EqualizationSetup` (R195, R196). -/
def equalizationSetupAct (P : Params) : Act Unit := do
  modifyState (setPhase .eqSetup)
  let s ← getState
  let p := selectEqPattern P s.ses.capTps3 s.ses.capTps4
  phySetPatternOp p
  writePatternByte P p
  modifyState (goTo .equalization)

/-- The retry of an Equalization round (R202). -/
def eqRetry (P : Params) (q : AdjustReq) (s : State) : State :=
  let s := adopt P q s
  goTo .equalization { s with ses.eqRetryCnt := s.ses.eqRetryCnt + 1 }

/-- The success test of an Equalization round, CR-done having been seen (R199). -/
def eqDone (t : Status3) (n : Nat) : Bool :=
  allSet t.lanes.eq n && allSet t.lanes.sl n && t.align

/-- The action of `Equalization`: one round (R197). -/
def equalizationAct (P : Params) : Act Unit := do
  modifyState (setPhase .eq)
  pollPoint
  programLanes P
  waitReadInterval P
  let b ← memRead P P.addrLane01Status 3
  let t := parseStatus3 P b
  let s ← getState
  if !allSet t.lanes.cr s.ses.curLanes.toNat then
    modifyState (goTo .reduceLinkRate)
  else if eqDone t s.ses.curLanes.toNat then
    modifyState (goTo .success)
  else if P.eqRetryMax ≤ s.ses.eqRetryCnt.toNat then
    raise .trainingExhausted
  else do
    let a ← memRead P P.addrAdjustRequest 2
    modifyState (eqRetry P (parseAdjust a))

/-- The action of `Success` (R200). -/
def successAct (P : Params) : Act Unit := do
  phySetPatternOp .normal
  writePatternByte P .normal
  modifyState (doneCmd .ok)

/-! ### The meanings -/

/-- `ST_Idle`: no transaction; the block stays in `Idle` (R134). -/
def execStIdle (s : State) : Out := runState .idle (pure ()) s

/-- `ST_CapNeg` (R150). -/
def execStCapNeg (s : State) : Out := runState .capNeg (capNegAct Config.hw) s

/-- `ST_PhySetup` (R160). -/
def execStPhySetup (s : State) : Out := runState .phySetup (phySetupAct Config.hw) s

/-- `ST_ClockRecovery` (R170). -/
def execStClockRecovery (s : State) : Out := runState .clockRecovery (clockRecoveryAct Config.hw) s

/-- `ST_ReduceLinkRate` (R185). -/
def execStReduceLinkRate (s : State) : Out := runState .reduceLinkRate (reduceLinkRateAct Config.hw) s

/-- `ST_EqualizationSetup` (R195). -/
def execStEqualizationSetup (s : State) : Out :=
  runState .equalizationSetup (equalizationSetupAct Config.hw) s

/-- `ST_Equalization` (R197). -/
def execStEqualization (s : State) : Out := runState .equalization (equalizationAct Config.hw) s

/-- `ST_Success` (R200). -/
def execStSuccess (s : State) : Out := runState .success (successAct Config.hw) s

end Sys2Proof.Machine
end

