-- ==== Sys2Proof/Machine/Dispatch.lean ====
section
/-! DEFINITION. One arm per constructor of Instr. -/

namespace Sys2Proof.Machine

open Sys2Proof

/-- The meaning of an instruction. -/
def exec (i : Instr) (s : State) : Host.Outcome State Fault Refusal :=
  match i with
  | .train rate lanes => Sys2Proof.Machine.execTrain rate lanes s
  | .checkHealth x => Sys2Proof.Machine.execCheckHealth x s
  | .illegalOp0 x => Sys2Proof.Machine.execIllegalOp0 x s
  | .illegalOp3 x => Sys2Proof.Machine.execIllegalOp3 x s
  | .illegalBit7 x => Sys2Proof.Machine.execIllegalBit7 x s
  | .stIdle => Sys2Proof.Machine.execStIdle s
  | .stCapNeg => Sys2Proof.Machine.execStCapNeg s
  | .stPhySetup => Sys2Proof.Machine.execStPhySetup s
  | .stClockRecovery => Sys2Proof.Machine.execStClockRecovery s
  | .stReduceLinkRate => Sys2Proof.Machine.execStReduceLinkRate s
  | .stEqualizationSetup => Sys2Proof.Machine.execStEqualizationSetup s
  | .stEqualization => Sys2Proof.Machine.execStEqualization s
  | .stSuccess => Sys2Proof.Machine.execStSuccess s
  | .stFailed => Sys2Proof.Machine.execStFailed s
  | .stLinkUnplugged => Sys2Proof.Machine.execStLinkUnplugged s
  | .stHealthCheck => Sys2Proof.Machine.execStHealthCheck s
  | .resOk op phase rate lanes => Sys2Proof.Machine.execResOk op phase rate lanes s
  | .resLinkUnplugged op phase rate lanes => Sys2Proof.Machine.execResLinkUnplugged op phase rate lanes s
  | .resTrainingExhausted op phase rate lanes => Sys2Proof.Machine.execResTrainingExhausted op phase rate lanes s
  | .resCapabilityMismatch op phase rate lanes => Sys2Proof.Machine.execResCapabilityMismatch op phase rate lanes s
  | .resAuxTransportError op phase rate lanes => Sys2Proof.Machine.execResAuxTransportError op phase rate lanes s
  | .resRetrainRequired op phase rate lanes => Sys2Proof.Machine.execResRetrainRequired op phase rate lanes s
  | .resBadCommand op phase rate lanes => Sys2Proof.Machine.execResBadCommand op phase rate lanes s
  | .phaseNone => Sys2Proof.Machine.execPhaseNone s
  | .phaseCapNeg => Sys2Proof.Machine.execPhaseCapNeg s
  | .phasePhySetup => Sys2Proof.Machine.execPhasePhySetup s
  | .phaseCr => Sys2Proof.Machine.execPhaseCr s
  | .phaseEqSetup => Sys2Proof.Machine.execPhaseEqSetup s
  | .phaseEq => Sys2Proof.Machine.execPhaseEq s
  | .phaseHealth => Sys2Proof.Machine.execPhaseHealth s
  | .phyReset a => Sys2Proof.Machine.execPhyReset a s
  | .phySetLinkRate rate => Sys2Proof.Machine.execPhySetLinkRate rate s
  | .phySetLaneCount lanes => Sys2Proof.Machine.execPhySetLaneCount lanes s
  | .phyModeSetting => Sys2Proof.Machine.execPhyModeSetting s
  | .phyPostInit => Sys2Proof.Machine.execPhyPostInit s
  | .phyWaitPllLock => Sys2Proof.Machine.execPhyWaitPllLock s
  | .phySetVoltPe sw pe => Sys2Proof.Machine.execPhySetVoltPe sw pe s
  | .phySetPattern pattern => Sys2Proof.Machine.execPhySetPattern pattern s
  | .phySetEnhFrame enable => Sys2Proof.Machine.execPhySetEnhFrame enable s
  | .auxRd addr len => Sys2Proof.Machine.execAuxRd addr len s
  | .auxWr addr len data => Sys2Proof.Machine.execAuxWr addr len data s
  | .tpsetNormal => Sys2Proof.Machine.execTpsetNormal s
  | .tpsetTps1 => Sys2Proof.Machine.execTpsetTps1 s
  | .tpsetTps2 => Sys2Proof.Machine.execTpsetTps2 s
  | .tpsetTps3 => Sys2Proof.Machine.execTpsetTps3 s
  | .tpsetTps4 => Sys2Proof.Machine.execTpsetTps4 s
  | .rate162 => Sys2Proof.Machine.execRate162 s
  | .rate27 => Sys2Proof.Machine.execRate27 s
  | .rate54 => Sys2Proof.Machine.execRate54 s
  | .rate81 => Sys2Proof.Machine.execRate81 s

end Sys2Proof.Machine
end

