-- ==== Sys2Proof/Machine/Fetch.lean ====
section
/-! DEFINITION. What the block does next: a presented command word in `Idle`, else the state register
(R21, R79, R130). -/

namespace Sys2Proof.Machine

open Sys2Proof

/-- The word that selects the next step: in `Idle` the command word presented, if any; in every other
case the code of `st` (R21, R134). -/
def fetchWord (s : State) : TableWord :=
  match s.st, s.env.cmds with
  | .idle, w :: _ => .cmd w
  | x, _ => .st x.code

/-- The instruction that the next step runs. -/
def fetch (s : State) : Except Reject Instr := decode (fetchWord s)

/-- The state in which the fetched instruction runs: the `done` pulse of the step before is over (R37),
and a command word taken from the port is no longer presented (R130; log entry 4). -/
def afterFetch (s : State) : State :=
  { s with out.done := false,
           env.cmds := if s.st = .idle then s.env.cmds.tail else s.env.cmds }

/-- A command word presented to the idle block, in place of the one that was (R90). -/
def presentCommand (w : BitVec 8) (s : State) : State :=
  { s with st := .idle, env.rstN := true, env.cmds := w :: s.env.cmds.tail }

/-- A state selected on `st`; `Idle` is selected with no command presented, since a presented one would
be accepted (R21, R134). -/
def selectState (x : Fsm) (s : State) : State :=
  { s with st := x, env.rstN := true, env.cmds := if x = .idle then [] else s.env.cmds }

/-- The state with a given code (R21); 11 to 15 are unused. -/
def fsmOfCode (c : BitVec 4) : Option Fsm :=
  if c = 0 then some .idle else if c = 1 then some .capNeg else if c = 2 then some .phySetup
  else if c = 3 then some .clockRecovery else if c = 4 then some .reduceLinkRate
  else if c = 5 then some .equalizationSetup else if c = 6 then some .equalization
  else if c = 7 then some .success else if c = 8 then some .failed
  else if c = 9 then some .linkUnplugged else if c = 10 then some .healthCheck else none

/-- A table word placed where the next step looks: a CMD word on the command port, an ST word on the
state register. The words of the other formats select no step (R21 "and of nothing else", R79): the
state stays as it is (log entry 5). -/
def placeWord (t : TableWord) (s : State) : State :=
  match t with
  | .cmd w => presentCommand w s
  | .st w => match fsmOfCode w with
    | some x => selectState x s
    | none => s
  | _ => s

end Sys2Proof.Machine
end

