-- ==== Sys2Proof/Machine/Step.lean ====
section
/-! DEFINITION. One step of the block: one action (R5), or the reset state while reset is asserted
(R290). -/

namespace Sys2Proof.Machine

open Sys2Proof

/-- One step. While `rst_n` is 0 the block is held in the reset state (R290); else the fetched
instruction runs. `rst_n` is read at the start of a step only, so reset falls between two actions or while
a request is outstanding, and at no other point inside an action (DESIGN CHOICE, log entry 25). -/
def step (s : State) : Host.Outcome State Fault Refusal :=
  if s.env.rstN = false then .next (blockReset s)
  else match fetch s with
    | .ok i => exec i (afterFetch s)
    | .error why => .refused (.undecodable why)

/-- `s` with a table word of `nbits` bits where `step` takes its next instruction (log entries 5, 6). -/
def State.withFetchWord (s : State) (nbits w : Nat) : State :=
  match tableWordOf nbits w with
  | some t => placeWord t s
  | none => s

end Sys2Proof.Machine
end

