-- ==== Sys2Proof/Machine/Notation.lean ====
section
/-! DEFINITION. The textual forms of commands and events (R60, R113). -/

namespace Sys2Proof.Machine

open Sys2Proof

/-- One hexadecimal digit. -/
def hexDigit (n : Nat) : Char :=
  Char.ofNat (if n % 16 < 10 then 48 + n % 16 else 55 + n % 16)

/-- The low `k` hexadecimal digits of a number, highest first. -/
def hexChars : Nat → Nat → List Char
  | 0, _ => []
  | k + 1, n => hexChars k (n / 16) ++ [hexDigit n]

/-- A number in `k` hexadecimal digits. -/
def hex (k n : Nat) : String := String.ofList (hexChars k n)

/-- A DPCD address: three digits where they hold it (R60), else five. -/
def addrText (a : Addr) : String := "0x" ++ hex (if a.toNat < 4096 then 3 else 5) a.toNat

/-- A byte list: hexadecimal, lowest address first (R113). -/
def bytesText (l : List Byte) : String :=
  "[" ++ " ".intercalate (l.map fun b => hex 2 b.toNat) ++ "]"

/-- The mnemonic of a PHY operation without its `PHY_` (R108, R113). -/
def phyOpText : PhyOpc → String
  | .reset => "RESET" | .setLinkRate => "SET_LINK_RATE" | .setLaneCount => "SET_LANE_COUNT"
  | .modeSetting => "MODE_SETTING" | .postInit => "POST_INIT" | .waitPllLock => "WAIT_PLL_LOCK"
  | .setVoltPe => "SET_VOLT_PE" | .setPattern => "SET_PATTERN" | .setEnhFrame => "SET_ENH_FRAME"

/-- The argument of a PHY operation as printed: none where it is always 0, hexadecimal for the lane
levels, else decimal. -/
def phyArgText : PhyOpc → BitVec 16 → String
  | .modeSetting, _ => ""
  | .postInit, _ => ""
  | .waitPllLock, _ => ""
  | .setVoltPe, a => " 0x" ++ hex 4 a.toNat
  | _, a => " " ++ toString a.toNat

/-- The name of a result code (R93). -/
def resCodeText : ResCode → String
  | .ok => "OK" | .linkUnplugged => "LINK_UNPLUGGED" | .trainingExhausted => "TRAINING_EXHAUSTED"
  | .capabilityMismatch => "CAPABILITY_MISMATCH" | .auxTransportError => "AUX_TRANSPORT_ERROR"
  | .retrainRequired => "RETRAIN_REQUIRED" | .badCommand => "BAD_COMMAND"

/-- The name of a phase (R94). -/
def phaseText : Phase → String
  | .none => "NONE" | .capNeg => "CAPNEG" | .phySetup => "PHYSETUP" | .cr => "CR"
  | .eqSetup => "EQSETUP" | .eq => "EQ" | .health => "HEALTH"

/-- A bit as printed. -/
def bitText (b : Bool) : String := if b then "1" else "0"

/-- A command word (R113). The spec gives no form for a word that is neither command: it is printed as
its byte (DESIGN CHOICE, log entry 21). -/
def cmdText (w : BitVec 8) : String :=
  match decodeCmd w with
  | .train rate lanes => "TRAIN rate=" ++ toString rate.toNat ++ " lanes=" ++ toString lanes.toNat
  | .checkHealth _ => "CHECK_HEALTH"
  | _ => "0x" ++ hex 2 w.toNat

/-- The textual form of an event (R60). -/
def eventText : Event → String
  | .cmd w => "CMD " ++ cmdText w
  | .auxRd a n none => "AUXRD " ++ addrText a ++ " " ++ toString n ++ " -> err"
  | .auxRd a n (some b) => "AUXRD " ++ addrText a ++ " " ++ toString n ++ " -> ok " ++ bytesText b
  | .auxWr a v ok => "AUXWR " ++ addrText a ++ " " ++ bytesText v ++ (if ok then " -> ok" else " -> err")
  | .phy op arg => "PHY " ++ phyOpText op ++ phyArgText op arg
  | .phyRd p => "PHYRD -> rate_code=0x" ++ hex 2 p.rateCode.toNat ++ " lanes=" ++
      toString p.lanes.toNat ++ " pipe_active=" ++ bitText p.pipeActive
  | .wait us => "WAIT " ++ toString us.toNat
  | .poll b => "POLL -> " ++ bitText b
  | .done r => "DONE code=" ++ resCodeText r.code ++ " phase=" ++ phaseText r.phase ++ " rate=" ++
      toString r.rate.toNat ++ " lanes=" ++ toString r.lanes.toNat

end Sys2Proof.Machine
end

