-- ==== Sys2Proof/Safety.lean ====
section
/-! DEFINITION. What the claims about the block are stated in: the transition table of R22, the events
the block may make (R70, R80, R108, R110), the invariant of its registers (R26, R30 to R34, R38, R94,
R240) and the rank that bounds a command (R203, R303). -/

namespace Sys2Proof.Machine

open Sys2Proof

/-! ### The transition table -/

/-- The states that R22 lists after each state. -/
def edgesFrom : Fsm → List Fsm
  | .idle => [.capNeg, .healthCheck, .idle]
  | .capNeg => [.phySetup, .failed]
  | .phySetup => [.linkUnplugged, .clockRecovery, .failed]
  | .clockRecovery => [.linkUnplugged, .equalizationSetup, .reduceLinkRate, .clockRecovery, .failed]
  | .reduceLinkRate => [.phySetup, .failed]
  | .equalizationSetup => [.equalization, .failed]
  | .equalization => [.linkUnplugged, .reduceLinkRate, .success, .failed, .equalization]
  | .success => [.idle, .failed]
  | .failed => [.idle]
  | .linkUnplugged => [.idle]
  | .healthCheck => [.idle]

/-! ### Legal events -/

/-- The reads of R70: address and length. -/
def readAccesses (P : Params) : List (Addr × Nat) :=
  [(P.capAddr, P.capLen), (P.addrLinkBwSet, 2), (P.addrLane01Status, 2), (P.addrLane01Status, 3),
   (P.addrAdjustRequest, 2)]

/-- The lane counts (R97). -/
def laneCounts : List LaneCount := [1, 2, 4]

/-- The two bytes of the link configuration write that R163 allows. -/
def linkConfigBytes (P : Params) : List (List Byte) :=
  ([0, 1, 2, 3] : List RateIdx).flatMap fun r =>
    laneCounts.flatMap fun n => [false, true].map fun e => [rateCode P r, laneCountSetByte P n e]

/-- The writes of R70: the burst at `LINK_BW_SET`, one pattern byte, or four lane-set bytes (bits 7:6
clear, R101). -/
def writeLegal (P : Params) (addr : Addr) (v : List Byte) : Bool :=
  (addr == P.addrLinkBwSet && (linkConfigBytes P).contains v) ||
  (addr == P.addrTrainingPatternSet &&
    [[P.tpsetNormal], [P.tpsetTps1], [P.tpsetTps2], [P.tpsetTps3], [P.tpsetTps4]].contains v) ||
  (addr == P.addrTrainingLane0Set && v.length == P.maxLanes && v.all fun b => b.extractLsb' 6 2 == 0)

/-- A PHY operation with an argument of R108: its request word decodes to a well-formed instruction. -/
def phyLegal (op : PhyOpc) (arg : BitVec 16) : Bool :=
  match decodePhyReq (phyReqWord op arg) with
  | .ok i => i.wf
  | .error _ => false

/-- The durations of R110: 100, 4000 k for k = 1 to 127, and 50000. -/
def waitLegal (us : Nat) : Bool :=
  us == 100 || us == 50000 || (us % 4000 == 0 && 1 ≤ us / 4000 && us / 4000 ≤ 127)

/-- The events the block may make. -/
def eventLegal (P : Params) : Event → Bool
  | .cmd _ => true
  | .auxRd a n _ => (readAccesses P).contains (a, n)
  | .auxWr a v _ => writeLegal P a v
  | .phy op arg => phyLegal op arg
  | .phyRd _ => true
  | .wait us => waitLegal us.toNat
  | .poll _ => true
  | .done _ => true

/-- The event drives something outside the block: an AUX write or a PHY operation. -/
def eventDrives : Event → Bool
  | .auxWr _ _ _ => true
  | .phy _ _ => true
  | _ => false

/-- The event is an AUX write. -/
def eventIsAuxWrite : Event → Bool
  | .auxWr _ _ _ => true
  | _ => false

/-- The event is an unplug poll. -/
def eventIsPoll : Event → Bool
  | .poll _ => true
  | _ => false

/-! ### Completed commands -/

/-- The instruction of a result (R92, R93). -/
def ResultRegs.instr (r : ResultRegs) : Instr :=
  match r.code with
  | .ok => .resOk r.op r.phase r.rate r.lanes
  | .linkUnplugged => .resLinkUnplugged r.op r.phase r.rate r.lanes
  | .trainingExhausted => .resTrainingExhausted r.op r.phase r.rate r.lanes
  | .capabilityMismatch => .resCapabilityMismatch r.op r.phase r.rate r.lanes
  | .auxTransportError => .resAuxTransportError r.op r.phase r.rate r.lanes
  | .retrainRequired => .resRetrainRequired r.op r.phase r.rate r.lanes
  | .badCommand => .resBadCommand r.op r.phase r.rate r.lanes

/-- The result registers hold a result that R92 and R94 allow, or nothing since reset (R301). -/
def ResultRegs.legal (r : ResultRegs) : Bool :=
  if r.valid then r.instr.wf else r == ResultRegs.reset

/-! ### The invariant -/

/-- The counters of a lane stay in their range (R34, R240). -/
def Lane.inRange (P : Params) (l : Lane) : Bool :=
  decide (l.swRep.toNat ≤ P.maxReachThreshold) && decide (l.peRep.toNat ≤ P.maxReachThreshold)

/-- The lane file is as `LaneReset` leaves it (R231). -/
def lanesAreReset (f : Lanes Lane) : Bool := f == Lanes.replicate Lane.reset

/-- The three retry counters are 0 (R187). -/
def countersAreZero (s : Session) : Bool :=
  s.crStallCnt == 0 && s.eqRetryCnt == 0 && s.totalRetryCnt == 0

/-- No rate and no lane count is fixed yet (R26, R92). -/
def pairIsZero (s : Session) : Bool := s.curRate == 0 && s.curLanes == 0

/-- What holds of the registers in each FSM state. -/
def Session.fits (P : Params) (st : Fsm) (fail : FailCode) (cmd : CmdLatch) (s : Session)
    (lanes : Lanes Lane) : Bool :=
  let train := cmd.op == 1
  let legal := lanesLegal s.curLanes.toNat
  match st with
  | .idle => true
  | .capNeg => train && lanesLegal cmd.lanes.toNat && pairIsZero s && countersAreZero s && lanesAreReset lanes
  | .phySetup => train && legal && countersAreZero s && lanesAreReset lanes
  | .clockRecovery => train && legal && s.eqRetryCnt == 0 && decide (s.totalRetryCnt.toNat < P.totalRetryMax)
      && decide (s.crStallCnt.toNat ≤ s.totalRetryCnt.toNat)
  | .reduceLinkRate => train && legal && (s.phase == .cr || s.phase == .eq)
  | .equalizationSetup => train && legal && s.eqRetryCnt == 0
  | .equalization => train && legal
  | .success => train && legal && s.phase == .eq
  | .failed => train && match fail with
    | .trainingExhausted => legal && (s.phase == .cr || s.phase == .eq)
    | .capabilityMismatch => pairIsZero s && s.phase == .capNeg
    | .auxTransportError => (pairIsZero s && s.phase == .capNeg) ||
        (legal && (s.phase == .phySetup || s.phase == .cr || s.phase == .eqSetup || s.phase == .eq))
  | .linkUnplugged => train && legal && (s.phase == .phySetup || s.phase == .cr || s.phase == .eq)
  | .healthCheck => cmd.op == 2 && pairIsZero s

/-- The counters stay in their ranges (R30 to R32, R34, R43). -/
def State.countersInRange (P : Params) (s : State) : Bool :=
  decide (s.ses.crStallCnt.toNat ≤ P.crStallMax) &&
  decide (s.ses.eqRetryCnt.toNat ≤ P.eqRetryMax) &&
  decide (s.ses.totalRetryCnt.toNat ≤ P.totalRetryMax) &&
  decide (s.auxTry.toNat ≤ P.auxRetryMax) &&
  s.lanes.toList.all (Lane.inRange P)

/-- How many requests are outstanding. -/
def State.outstanding (s : State) : Nat :=
  s.out.auxReq.isSome.toNat + s.out.phyReq.isSome.toNat + s.out.waitReq.isSome.toNat

/-- At most one request is outstanding (R76), none in `Idle` (R134), and answers are held only while
one is. -/
def State.portsFit (s : State) : Bool :=
  decide (s.outstanding ≤ 1) && (s.waiting || s.held == Held.empty) && !(s.st == .idle && s.waiting)

/-- The invariant of the block. -/
def State.inv (s : State) : Bool :=
  s.countersInRange Config.hw && s.ses.fits Config.hw s.st s.failCode s.cmd s.lanes &&
  s.res.legal && s.portsFit

/-! ### The bound of a command -/

/-- How far a busy block is from the end of its command: every action that ends makes it smaller
(R177, R186, R203). -/
def State.rank (P : Params) (s : State) : Nat :=
  let r := 40 * s.ses.curRate.toNat
  match s.st with
  | .idle => 0
  | .linkUnplugged => 1
  | .healthCheck => 1
  | .failed => 1
  | .success => r + 3
  | .reduceLinkRate => r + 2
  | .equalization => r + 4 + (P.eqRetryMax - s.ses.eqRetryCnt.toNat)
  | .equalizationSetup => r + 12
  | .clockRecovery => r + 12 + (P.totalRetryMax - s.ses.totalRetryCnt.toNat)
  | .phySetup => r + 30
  | .capNeg => 160

/-! ### What the claims about one instruction are stated in -/

/-- An environment that gives the answers of `h` first, then goes on as `e`. -/
def Env.before (h : Held) (e : Env) : Env :=
  { e with
    auxRsps := h.aux ++ e.auxRsps, phyAcks := e.phyAcks + h.acks,
    phySamples := h.samples ++ e.phySamples, waitDones := e.waitDones + h.waits,
    unplugs := h.polls ++ e.unplugs }

/-- An environment to which more answers come later: responses, acknowledgements, ends of waits. -/
def Env.later (e : Env) (aux : List AuxRsp) (acks waits : Nat) : Env :=
  { e with auxRsps := e.auxRsps ++ aux, phyAcks := e.phyAcks + acks, waitDones := e.waitDones + waits }

/-- What answered transactions leave: other inputs left, no request driven, more events. -/
def State.afterPorts (s : State) (env : Env) (events : List Event) : State :=
  { dropRequests s with env := env, trace := s.trace ++ events }

/-- The attempts of one AUX transaction (R66, R67): the failed ones before the last, and the last. -/
structure Attempts where
  /-- responses of failed attempts -/
  errs : List AuxRsp
  /-- response of the last attempt -/
  last : AuxRsp
  deriving DecidableEq, Repr

/-- Up to four attempts fail, the next one succeeds (R66). -/
def Attempts.answered (x : Attempts) : Bool :=
  decide (x.errs.length ≤ 4) && x.errs.all AuxRsp.err && !x.last.err

/-- Five attempts fail (R66). -/
def Attempts.failed (x : Attempts) : Bool :=
  decide (x.errs.length = 4) && x.errs.all AuxRsp.err && x.last.err

/-- The responses, in their order. -/
def Attempts.responses (x : Attempts) : List AuxRsp := x.errs ++ [x.last]

/-- How many back-off waits the transaction makes: one before each retry. -/
def Attempts.waits (x : Attempts) : Nat := x.errs.length

/-- The value that the transaction leaves in `aux_try` (R43). -/
def Attempts.tries (x : Attempts) : BitVec 3 := BitVec.ofNat 3 x.errs.length

/-- The bytes that a read of `n` bytes returns. -/
def Attempts.bytes (x : Attempts) (n : Nat) : List Byte := dataBytes x.last.data n

/-- The events of a read: each failed attempt with its back-off wait, then the last attempt (R66). -/
def Attempts.readEvents (x : Attempts) (addr : Addr) (n : Nat) : List Event :=
  (x.errs.flatMap fun _ => [.auxRd addr n none, .wait 50000]) ++
  [.auxRd addr n (if x.last.err then none else some (x.bytes n))]

/-- The events of a write: the same with its bytes (R67). -/
def Attempts.writeEvents (x : Attempts) (addr : Addr) (v : List Byte) : List Event :=
  (x.errs.flatMap fun _ => [.auxWr addr v false, .wait 50000]) ++ [.auxWr addr v (!x.last.err)]

/-- What answered transactions leave when `x` are the attempts of the last AUX transaction among
them. -/
def State.afterAux (s : State) (env : Env) (events : List Event) (x : Attempts) : State :=
  { s.afterPorts env events with auxTry := x.tries }

/-- What a fifth failed attempt leaves in a `TRAIN`: the state `Failed` with `AUX_TRANSPORT_ERROR` and no
other register changed (R263). -/
def State.afterAuxFail (s : State) (env : Env) (events : List Event) : State :=
  { s.afterPorts env events with auxTry := 4, st := .failed, failCode := .auxTransportError }

/-- The wait before a status read (R172). -/
def State.readInterval (s : State) : BitVec 20 := BitVec.ofNat 20 (max (s.ses.rdInterval.toNat * 4000) 100)

/-- The events of a training round up to its lane-set write (R170, R197). -/
def roundStartEvents (s : State) (w : Attempts) : List Event :=
  [.poll false, .phy .setVoltPe (lanesArg s.lanes)] ++ w.writeEvents 0x103 (laneSetBytes Config.hw s.lanes)

/-- The events of a training round up to its status read of `n` bytes (R170, R197). -/
def roundEvents (s : State) (n : Nat) (w b : Attempts) : List Event :=
  roundStartEvents s w ++ [.wait s.readInterval] ++ b.readEvents 0x202 n

/-- The events of the PHY block of `PhySetup` (R162). -/
def phyBlockEvents (s : State) : List Event :=
  [.phy .reset 1, .phy .setLinkRate (s.ses.curRate.setWidth 16), .phy .modeSetting 0,
   .phy .setLaneCount (s.ses.curLanes.setWidth 16)] ++
  (if s.ses.capEfc then [.phy .setEnhFrame 1] else []) ++
  [.phy .reset 0, .phy .postInit 0, .phy .waitPllLock 0]

/-- The PHY block if `PhySetup` makes it: the sample differs from the target or the pipeline is inactive
(R161). -/
def phySetupBlock (s : State) (p : PhySample) : List Event :=
  if p.rateCode ≠ rateCode Config.hw s.ses.curRate ∨ p.lanes ≠ s.ses.curLanes ∨ p.pipeActive = false then
    phyBlockEvents s
  else []

/-- The bytes of the link configuration write (R163). -/
def State.linkConfig (s : State) : List Byte :=
  [rateCode Config.hw s.ses.curRate,
   s.ses.curLanes.setWidth 8 ||| (if s.ses.capEfc then 0x80 else 0x00)]

/-- The pattern of `EqualizationSetup` as the PHY enum and the sink's byte (R98, R196). -/
def State.eqPattern (s : State) : BitVec 16 × Byte :=
  if s.ses.capTps4 then (4, 0x07) else if s.ses.capTps3 then (3, 0x23) else (2, 0x22)

/-- The pending codes with which each state enters `Failed` (R261 to R264). -/
def failCodesFrom : Fsm → List FailCode
  | .capNeg => [.capabilityMismatch, .auxTransportError]
  | .reduceLinkRate => [.trainingExhausted]
  | .equalization => [.trainingExhausted, .auxTransportError]
  | .phySetup => [.auxTransportError]
  | .clockRecovery => [.auxTransportError]
  | .equalizationSetup => [.auxTransportError]
  | .success => [.auxTransportError]
  | .idle => []
  | .failed => []
  | .linkUnplugged => []
  | .healthCheck => []

/-- The result that `Done` writes (R136). -/
def State.result (s : State) (code : ResCode) : ResultRegs :=
  ⟨true, s.cmd.op, code, s.ses.phase, s.ses.curRate, s.ses.curLanes⟩

/-- What a refused command word leaves in `Idle` (R133, R266). -/
def refusedCommand (w : BitVec 8) (s : State) : State :=
  let res : ResultRegs := ⟨true, w.extractLsb' 0 2, .badCommand, .none, 0, 0⟩
  { s with
    st := .idle, cmd := ⟨w.extractLsb' 0 2, w.extractLsb' 2 2, w.extractLsb' 4 3⟩,
    ses.phase := .none, ses.curRate := 0, ses.curLanes := 0, res := res, out.done := true,
    trace := s.trace ++ [.cmd w, .done res] }

/-- The session registers that `SessionInit` writes: each of them 0 (R42, R137). -/
def freshSession : Session where
  curRate := 0
  curLanes := 0
  capTps3 := false
  capTps4 := false
  capEfc := false
  rdInterval := 0
  phase := .none
  crStallCnt := 0
  eqRetryCnt := 0
  totalRetryCnt := 0

/-- The lane file that `LaneReset` writes: levels and counters 0 in every lane (R42, R231). -/
def freshLanes : Lanes Lane := Lanes.replicate { sw := 0, pe := 0, swRep := 0, peRep := 0 }

/-- What an accepted legal command word leaves: a fresh session in the state `x` (R130, R137). -/
def startedCommand (w : BitVec 8) (x : Fsm) (s : State) : State :=
  { s with
    st := x, cmd := ⟨w.extractLsb' 0 2, w.extractLsb' 2 2, w.extractLsb' 4 3⟩,
    ses := freshSession, lanes := freshLanes, trace := s.trace ++ [.cmd w] }

/-- The reset values, written out (R42, R291), beside the inputs and the record of past events `e`, `k`,
`es`, which are not the block's (log entry 17). That no answer is held is log entry 3, and the pending code
is log entry 7. -/
def allReset (e : Env) (k : Nat) (es : List Event) : State where
  st := .idle
  cmd := { op := 0, rate := 0, lanes := 0 }
  ses := freshSession
  lanes := freshLanes
  res := { valid := false, op := 0, code := .ok, phase := .none, rate := 0, lanes := 0 }
  failCode := .trainingExhausted
  auxTry := 0
  out := { done := false, auxReq := none, phyReq := none, waitReq := none }
  env := e
  held := { aux := [], acks := 0, samples := [], waits := 0, polls := [] }
  tick := k
  trace := es

/-- What a completion with a given result leaves after the events `es` (R136). -/
def completed (res : ResultRegs) (s : State) : State :=
  { s with st := .idle, res := res, out.done := true, trace := s.trace ++ [.done res] }

/-- How many times in a row, at the end of a list of requests, the value before was kept (R34). -/
def keptAtEnd (value : Level) (n : Nat) : List Level → Nat
  | [] => n
  | r :: rs => keptAtEnd r (if r = value then n + 1 else 0) rs

/-- The instruction that is the action of a state (R21). -/
def stateInstr : Fsm → Instr
  | .idle => .stIdle | .capNeg => .stCapNeg | .phySetup => .stPhySetup
  | .clockRecovery => .stClockRecovery | .reduceLinkRate => .stReduceLinkRate
  | .equalizationSetup => .stEqualizationSetup | .equalization => .stEqualization
  | .success => .stSuccess | .failed => .stFailed | .linkUnplugged => .stLinkUnplugged
  | .healthCheck => .stHealthCheck

/-- The phase register during the action of a state: the states that do not write it keep it (R29). -/
def phaseDuring : Fsm → Phase → Phase
  | .capNeg, _ => .capNeg | .phySetup, _ => .phySetup | .clockRecovery, _ => .cr
  | .equalizationSetup, _ => .eqSetup | .equalization, _ => .eq | .healthCheck, _ => .health
  | _, p => p

/-- The states with a poll point (R268). -/
def pollStates : List Fsm := [.phySetup, .clockRecovery, .equalization]

end Sys2Proof.Machine
end

