-- ==== Sys2Proof/Certificates/Slice0/Obligations.lean ====
section
/-! DEFINITION. The statements about the block, for the provers. Each docstring names the rules of spec/
it formalises; numbers of log entries name the model's own choices a statement rests on. -/

section

open Sys2Proof Sys2Proof.Machine

/-! ### Encodings -/

/-- Decoding the word of a well-formed instruction gives the instruction back, with every operand at
every value its encoding admits (30_encoding.md). -/
def Obligations.DecodeEncode : Prop :=
  ∀ i : Instr, i.wf = true → decode (encode i) = .ok i

/-- No bit of a word that decodes is dropped: encoding what it decodes to gives the word back
(30_encoding.md). -/
def Obligations.EncodeDecode : Prop :=
  ∀ (t : TableWord) (i : Instr), decode t = .ok i → encode i = t

/-- Which words of each format decode. Every command word does; of the state words those with codes 0 to 10;
of the phase words all but 7; of the result words those with `res_valid` 1, code and phase not 7 and bits
15:14 clear; of the PHY requests those with op 1 to 9 whose argument is one of R108 (a pattern enum 0 to 4, no
unused bit set), and beside these op 3 with 0, 3, 5, 6 or 7 and op 9 with 0; of the AUX requests those of 1 to
16 bytes without stray data; of the DPCD bytes the five pattern bytes at 0x102 and the four rate codes at
0x100 (R96, R98, R107, R108, R112, U6). That the decoder rejects the other words is log entry 20 (DEDUCED);
that it rejects a result word with `res_valid` 0 is its own choice, log entry 23. That it decodes those
arguments of op 3 and op 9 and result words of fields that no completion puts together, none of them well-
formed, and AUX requests of an access that R70 does not list, is its own choice too (log entry 20). -/
def Obligations.UnusedCodesRejected : Prop :=
  (∀ w : BitVec 8, ∃ i, decode (.cmd w) = .ok i) ∧
  (∀ w : BitVec 4, (∃ i, decode (.st w) = .ok i) ↔ w.toNat ≤ 10) ∧
  (∀ w : BitVec 3, (∃ i, decode (.phase w) = .ok i) ↔ w ≠ 7) ∧
  (∀ w : BitVec 16, (∃ i, decode (.res w) = .ok i) ↔
    w.getLsbD 0 = true ∧ w.extractLsb' 3 3 ≠ 7 ∧ w.extractLsb' 6 3 ≠ 7 ∧ w.extractLsb' 14 2 = 0) ∧
  (∀ w : BitVec 20,
    let op := (w.extractLsb' 0 4).toNat
    let arg := (w.extractLsb' 4 16).toNat
    (∃ i, decode (.phyReq w) = .ok i) ↔
      (op = 1 ∧ arg < 2) ∨ (op = 2 ∧ arg < 4) ∨ (op = 3 ∧ arg < 8) ∨
      ((op = 4 ∨ op = 5 ∨ op = 6) ∧ arg = 0) ∨ op = 7 ∨ (op = 8 ∧ arg ≤ 4) ∨ (op = 9 ∧ arg < 2)) ∧
  (∀ w : BitVec 154,
    let len := (w.extractLsb' 21 5).toNat
    let data := w.extractLsb' 26 128
    (∃ i, decode (.auxReq w) = .ok i) ↔ 1 ≤ len ∧ len ≤ 16 ∧
      (w.getLsbD 0 = false → data = 0) ∧ (w.getLsbD 0 = true → data >>> (8 * len) = 0)) ∧
  (∀ w : Byte, (∃ i, decode (.dpcd102 w) = .ok i) ↔
    w = 0x00 ∨ w = 0x21 ∨ w = 0x22 ∨ w = 0x23 ∨ w = 0x07) ∧
  (∀ w : Byte, (∃ i, decode (.dpcd100 w) = .ok i) ↔ w = 0x06 ∨ w = 0x0A ∨ w = 0x14 ∨ w = 0x1E)

/-- Words written out from the tables of 30_encoding.md decode to the instructions they stand for. -/
def Obligations.DecodedWords : Prop :=
  decode (.cmd 0b01001101) = .ok (.train 3 4) ∧
  decode (.cmd 0b00000010) = .ok (.checkHealth 0) ∧
  decode (.st 0b1010) = .ok .stHealthCheck ∧
  decode (.res 0b0010010101000011) = .ok (.resOk 1 .eq 2 4) ∧
  decode (.phase 0b100) = .ok .phaseEqSetup ∧
  decode (.phyReq 0b00000101000001010111) = .ok (.phySetVoltPe ⟨[1, 1, 0, 0], rfl⟩ ⟨[1, 1, 0, 0], rfl⟩) ∧
  decode (.auxReq 0b10000000000010000000100) = .ok (.auxRd 0x202 2) ∧
  decode (.auxReq 0b10000100001000000000001000000101) = .ok (.auxWr 0x102 1 0x21) ∧
  decode (.dpcd102 0b00100001) = .ok .tpsetTps1 ∧
  decode (.dpcd100 0b00010100) = .ok .rate54

/-- What the ports drive while the block waits. While a PHY operation or an AUX transaction waits for its
answer its port drives the encoding of the instruction (R65, R72, R107, R108). While a wait runs the wait port
drives its duration: 50000 before the retry of a failed attempt, and in a training round, before the status
read, the read interval times 4000, at least 100 (R66, R74, R110, R172). What the state keeps of the answers it
has is log entry 3; that the outstanding request is no event yet is the model's choice, log entry 24. -/
def Obligations.RequestWordIsEncoding : Prop :=
  (∀ (i : Instr) (s : State), i.wf = true → s.held = Held.empty →
    (∀ w, encode i = .phyReq w → s.env.phyAcks = 0 →
      exec i s = .next { dropRequests s with out.phyReq := some w }) ∧
    (∀ w, encode i = .auxReq w → s.env.auxRsps = [] →
      exec i s = .next { dropRequests s with auxTry := 0, out.auxReq := some w })) ∧
  (∀ (addr : Addr) (len : BitVec 5) (data : BitVec 128) (s : State) (e : Env) (a : AuxRsp),
    s.held = Held.empty → a.err = true → s.env = e.before ⟨[a], 0, [], 0, []⟩ → e.waitDones = 0 →
    let waits := fun ev : Event => ({ s.afterPorts e [ev] with
      auxTry := 1, out.waitReq := some 50000, held := ⟨[a], 0, [], 0, []⟩ } : State)
    exec (.auxRd addr len) s = .next (waits (.auxRd addr len.toNat none)) ∧
    exec (.auxWr addr len data) s = .next (waits (.auxWr addr (dataBytes data len.toNat) false))) ∧
  (∀ (s : State) (e : Env) (w : Attempts), s.held = Held.empty → w.answered = true →
    s.env = e.before ⟨w.responses, 1, [], w.waits, [false]⟩ → e.waitDones = 0 →
    let u : State := { s.afterAux e (roundStartEvents s w) w with
      out.waitReq := some (BitVec.ofNat 20 (max (s.ses.rdInterval.toNat * 4000) 100)),
      held := ⟨w.responses, 1, [], w.waits, [false]⟩ }
    exec .stClockRecovery s = .next { u with st := .clockRecovery, ses.phase := .cr } ∧
    exec .stEqualization s = .next { u with st := .equalization, ses.phase := .eq })

/-! ### The step -/

/-- A step runs the decoded instruction: what `fetch` reads from the command port or the state register
runs in the state after the fetch, in which the `done` pulse is over and an accepted word is taken from
the port. -/
def Obligations.StepRunsDecoded : Prop :=
  ∀ (s : State) (i : Instr), s.env.rstN = true → decode (fetchWord s) = .ok i →
    step s = exec i (afterFetch s)

/-- What the block does next is the command word presented in `Idle`, else the action of `st` and
nothing else (R21, R130, R134). -/
def Obligations.FetchSelects : Prop :=
  (∀ (s : State) (w : BitVec 8) (ws : List (BitVec 8)), s.st = .idle → s.env.cmds = w :: ws →
    fetch s = .ok (decodeCmd w)) ∧
  (∀ s : State, s.st ≠ .idle ∨ s.env.cmds = [] → fetch s = .ok (stateInstr s.st))

/-- No instruction and no step stops the machine: every exception ends the command with a result code,
and a missing answer leaves the block waiting (R260, R299). -/
def Obligations.NothingStops : Prop :=
  (∀ (i : Instr) (s : State), ∃ t, exec i s = .next t) ∧ (∀ s : State, ∃ t, step s = .next t)

/-- While `rst_n` is 0 a step leaves the reset values, whatever ran before: every register and every output
0, the state `Idle`, the phase `NONE`, no result, no event (R42, R290 to R292). The reset state has the same
values, and with them `busy` is 0, `cmd_ready` 1 and every output word 0 (R291). The inputs, the free-value
counter and the record of past events are not the block's and stay (log entry 17); that the held answers are
empty and the pending code of `Failed` is `TRAINING_EXHAUSTED` is the model's choice (log entries 3 and 7). -/
def Obligations.ResetHolds : Prop :=
  (∀ s : State, s.env.rstN = false → step s = .next (allReset s.env s.tick s.trace)) ∧
  State.reset = allReset State.reset.env State.reset.tick State.reset.trace ∧
  (∀ (e : Env) (k : Nat) (es : List Event),
    let r := allReset e k es
    r.stDbg = 0 ∧ r.busy = false ∧ r.cmdReady = true ∧ r.resWord = 0x0000 ∧ r.ses.phase.code = 0 ∧
    r.auxReqValid = false ∧ r.phyReqValid = false ∧ r.waitReqValid = false)

/-! ### Commands -/

/-- `TRAIN` with a legal lane count, accepted in `Idle`: the command latch, a session whose every register
and lane is 0 and whose phase is `NONE`, the event `CMD`, and `CapNeg` next (R130, R131, R137). -/
def Obligations.TrainStartsSession : Prop :=
  ∀ (s : State) (rate : RateIdx) (lanes : LaneCount), s.st = .idle → lanesLegal lanes.toNat = true →
    exec (.train rate lanes) s = .next { s with
      st := .capNeg, cmd := ⟨1, rate, lanes⟩,
      ses := {
        curRate := 0, curLanes := 0, capTps3 := false, capTps4 := false, capEfc := false, rdInterval := 0,
        phase := .none, crStallCnt := 0, eqRetryCnt := 0, totalRetryCnt := 0 },
      lanes := Lanes.replicate ⟨0, 0, 0, 0⟩, trace := s.trace ++ [.cmd (0#1 ++ lanes ++ rate ++ 1#2)] }

/-- `CHECK_HEALTH`, accepted in `Idle`, whatever bits 6:2 hold: a fresh session, the event `CMD`, and
`HealthCheck` next (R130, R132, R137). -/
def Obligations.CheckHealthStartsSession : Prop :=
  ∀ (s : State) (x : BitVec 5), s.st = .idle →
    exec (.checkHealth x) s = .next (startedCommand (0#1 ++ x ++ 2#2) .healthCheck s)

/-- An illegal command word, accepted in `Idle`, completes at once with `BAD_COMMAND`: `phase` `NONE`,
`cur_rate` and `cur_lanes` 0, no session, no external transaction, `st` still `Idle` (R133, R266). -/
def Obligations.IllegalCommandRefused : Prop :=
  ∀ s : State, s.st = .idle →
    (∀ (rate : RateIdx) (lanes : LaneCount), lanesLegal lanes.toNat = false →
      exec (.train rate lanes) s = .next (refusedCommand (0#1 ++ lanes ++ rate ++ 1#2) s)) ∧
    (∀ x : BitVec 5, exec (.illegalOp0 x) s = .next (refusedCommand (0#1 ++ x ++ 0#2) s)) ∧
    (∀ x : BitVec 5, exec (.illegalOp3 x) s = .next (refusedCommand (0#1 ++ x ++ 3#2) s)) ∧
    (∀ x : BitVec 7, exec (.illegalBit7 x) s = .next (refusedCommand (1#1 ++ x) s))

/-- A command presented while the block is busy is not accepted: a `busy` step leaves the presented
words, the command latch and the record of accepted words as they were; and a CMD row executed then
changes nothing (R135; log entry 13). -/
def Obligations.BusyAcceptsNothing : Prop :=
  (∀ (w : BitVec 8) (s : State), s.st ≠ .idle → exec (decodeCmd w) s = .next s) ∧
  (∀ s t : State, s.st ≠ .idle → s.env.rstN = true → step s = .next t →
    t.env.cmds = s.env.cmds ∧ t.cmd = s.cmd ∧
    ∃ es, t.trace = s.trace ++ es ∧ ∀ w, Event.cmd w ∉ es)

/-- A word presented in `Idle` is accepted as the pseudocode of R130 says: latched, refused if bit 7 is
set, `op` is 0 or 3, or it is a `TRAIN` of an illegal lane count; else a session starts. -/
def Obligations.AcceptanceIsPseudocode : Prop :=
  ∀ (s : State) (w : BitVec 8) (ws : List (BitVec 8)), s.st = .idle → s.env.rstN = true →
    s.env.cmds = w :: ws →
    let u : State := { s with out.done := false, env.cmds := ws }
    step s = .next (
      if w.getLsbD 7 = true ∨ w.extractLsb' 0 2 = 0 ∨ w.extractLsb' 0 2 = 3 then refusedCommand w u
      else if w.extractLsb' 0 2 = 1 then
        if w.extractLsb' 4 3 = 1 ∨ w.extractLsb' 4 3 = 2 ∨ w.extractLsb' 4 3 = 4 then
          startedCommand w .capNeg u
        else refusedCommand w u
      else startedCommand w .healthCheck u)

/-- `Idle` with no command presented: no transaction, no register changes, `st` stays (R134). -/
def Obligations.IdleStays : Prop :=
  (∀ s : State, s.st = .idle → s.held = Held.empty → s.waiting = false → exec .stIdle s = .next s) ∧
  (∀ s : State, s.st = .idle → s.held = Held.empty → s.waiting = false → s.env.rstN = true →
    s.env.cmds = [] → step s = .next { s with out.done := false })

/-! ### CapNeg and PhySetup -/

/-- `CapNeg` on legal capabilities, its read answered after at most four failed attempts: the flags and the
read interval are latched, the starting pair is the lower of the two on each side, and `PhySetup` is next;
nothing else changes (R66, R150, R151, R153). -/
def Obligations.CapNegStarts : Prop :=
  ∀ (s : State) (e : Env) (x : Attempts) (r : RateIdx), s.held = Held.empty →
    s.env = e.before ⟨x.responses, 0, [], x.waits, []⟩ → x.answered = true →
    let c := x.last.data
    rateIndex Config.hw (dataByte c 1) = some r →
    lanesLegal (dataByte c 2 &&& 0x1F).toNat = true →
    exec .stCapNeg s = .next { s.afterAux e (x.readEvents 0x000 16) x with
      st := .phySetup,
      ses := { s.ses with
        phase := .capNeg,
        capTps3 := (dataByte c 2).getLsbD 6,
        capTps4 := (dataByte c 3).getLsbD 7,
        capEfc := (dataByte c 2).getLsbD 7,
        rdInterval := (dataByte c 14).extractLsb' 0 7,
        curRate := if s.cmd.rate.toNat ≤ r.toNat then s.cmd.rate else r,
        curLanes := BitVec.ofNat 3 (min s.cmd.lanes.toNat (dataByte c 2 &&& 0x1F).toNat) } }

/-- `CapNeg` on a rate byte that is no rate code, or a lane field that is not 1, 2 or 4: after the one
read, answered after at most four failed attempts, `Failed` with `CAPABILITY_MISMATCH`; no PHY operation,
`cur_rate` and `cur_lanes` as they were (R66, R152, R261). -/
def Obligations.CapNegMismatch : Prop :=
  ∀ (s : State) (e : Env) (x : Attempts), s.held = Held.empty →
    s.env = e.before ⟨x.responses, 0, [], x.waits, []⟩ → x.answered = true →
    let c := x.last.data
    (rateIndex Config.hw (dataByte c 1) = none ∨
      lanesLegal (dataByte c 2 &&& 0x1F).toNat = false) →
    exec .stCapNeg s = .next { s.afterAux e (x.readEvents 0x000 16) x with
      st := .failed, failCode := .capabilityMismatch,
      ses := { s.ses with
        phase := .capNeg,
        capTps3 := (dataByte c 2).getLsbD 6,
        capTps4 := (dataByte c 3).getLsbD 7,
        capEfc := (dataByte c 2).getLsbD 7,
        rdInterval := (dataByte c 14).extractLsb' 0 7 } }

/-- `CapNeg` whose read fails five times: five attempts, a back-off wait before each retry, then `Failed`
with `AUX_TRANSPORT_ERROR`; `phase` is `CAPNEG` and no other session register changes (R66, R263). The other
states of a `TRAIN` are in AuxFailAfterFive. -/
def Obligations.CapNegAuxFails : Prop :=
  ∀ (s : State) (e : Env) (x : Attempts), s.held = Held.empty → x.failed = true →
    s.env = e.before ⟨x.responses, 0, [], 4, []⟩ →
    exec .stCapNeg s = .next { s.afterAuxFail e (x.readEvents 0x000 16) with ses.phase := .capNeg }

/-- `PhySetup`: the PHY is reprogrammed exactly when its sample differs from the target or its pipeline is
inactive, in the order of R162; then the link configuration burst, then TPS1 on the PHY and on the sink;
only `phase` is written, and `ClockRecovery` is next. Each write is answered after at most four failed
attempts (R67, R160 to R164). -/
def Obligations.PhySetupProgramsLink : Prop :=
  ∀ (s : State) (e : Env) (p : PhySample) (x y : Attempts), s.held = Held.empty →
    x.answered = true → y.answered = true →
    let block := phySetupBlock s p
    s.env = e.before ⟨x.responses ++ y.responses, block.length + 1, [p], x.waits + y.waits, [false]⟩ →
    exec .stPhySetup s = .next {
      s.afterAux e ([.poll false, .phyRd p] ++ block ++
        x.writeEvents 0x100 [rateCode Config.hw s.ses.curRate,
          s.ses.curLanes.setWidth 8 ||| (if s.ses.capEfc then 0x80 else 0x00)] ++
        [.phy .setPattern 1] ++ y.writeEvents 0x102 [0x21]) y with
      st := .clockRecovery, ses.phase := .phySetup }

/-! ### ClockRecovery and the ladder -/

/-- A `ClockRecovery` round whose status shows CR-done on every active lane: `EqualizationSetup` is next.
One without CR-done whose active lanes all have `max_sw`: `ReduceLinkRate` is next. In both the adjust
request is not read, nothing is adopted, and no counter changes (R170 to R174). The write and the read are
each answered after at most four failed attempts (R66, R67). -/
def Obligations.ClockRecoveryLeaves : Prop :=
  ∀ (s : State) (e : Env) (w b : Attempts), s.held = Held.empty → w.answered = true → b.answered = true →
    s.env = e.before ⟨w.responses ++ b.responses, 1, [], w.waits + 1 + b.waits, [false]⟩ →
    let done := allSet (parseLaneStatus2 (b.bytes 2)).cr s.ses.curLanes.toNat
    let u := s.afterAux e (roundEvents s 2 w b) b
    (done = true →
      exec .stClockRecovery s = .next { u with st := .equalizationSetup, ses.phase := .cr }) ∧
    (done = false → allMaxSwing Config.hw s.lanes s.ses.curLanes.toNat = true →
      exec .stClockRecovery s = .next { u with st := .reduceLinkRate, ses.phase := .cr })

/-- A `ClockRecovery` round that reads the adjust request: on an identical request with the stall counter
at 4, `ReduceLinkRate` without adopting; else the stall counter counts or returns to 0, the request is
adopted on all four lanes, `total_retry_cnt` grows, and at 10 the round falls back (R175, R176). Each AUX
transaction is answered after at most four failed attempts (R66, R67). -/
def Obligations.ClockRecoveryAdjusts : Prop :=
  ∀ (s : State) (e : Env) (w b a : Attempts), s.held = Held.empty →
    w.answered = true → b.answered = true → a.answered = true →
    s.env = e.before ⟨w.responses ++ b.responses ++ a.responses, 1, [],
      w.waits + 1 + b.waits + a.waits, [false]⟩ →
    allSet (parseLaneStatus2 (b.bytes 2)).cr s.ses.curLanes.toNat = false →
    allMaxSwing Config.hw s.lanes s.ses.curLanes.toNat = false →
    let q := parseAdjust (a.bytes 2)
    let same := sameAsRequested q s.lanes s.ses.curLanes.toNat
    let u := s.afterAux e (roundEvents s 2 w b ++ a.readEvents 0x206 2) a
    exec .stClockRecovery s = .next (
      if same = true ∧ s.ses.crStallCnt = 4 then
        { u with st := .reduceLinkRate, ses.phase := .cr }
      else { u with
        st := if 10 ≤ (s.ses.totalRetryCnt + 1).toNat then .reduceLinkRate else .clockRecovery,
        lanes := adoptLanes Config.hw q s.lanes,
        ses := { s.ses with
          phase := .cr, crStallCnt := if same then s.ses.crStallCnt + 1 else 0,
          totalRetryCnt := s.ses.totalRetryCnt + 1 } })

/-- One step down the ladder: the next lower rate, the three counters and the lane file 0, `PhySetup`
next; no transaction, `phase`, `cur_lanes` and the capability registers kept (R185 to R187, R191). -/
def Obligations.LadderStepsDown : Prop :=
  ∀ s : State, s.held = Held.empty → s.ses.curRate ≠ 0 →
    exec .stReduceLinkRate s = .next { dropRequests s with
      st := .phySetup, lanes := Lanes.replicate ⟨0, 0, 0, 0⟩,
      ses := { s.ses with
        curRate := s.ses.curRate - 1, crStallCnt := 0, eqRetryCnt := 0, totalRetryCnt := 0 } }

/-- At 1.62 Gbps a fallback is terminal: `Failed` with `TRAINING_EXHAUSTED`, every session register as it
was (R188, R262, R271). -/
def Obligations.LadderBottomExhausts : Prop :=
  ∀ s : State, s.held = Held.empty → s.ses.curRate = 0 →
    exec .stReduceLinkRate s = .next { dropRequests s with
      st := .failed, failCode := .trainingExhausted }

/-! ### Equalization -/

/-- `EqualizationSetup`: TPS4 if the sink advertises it, else TPS3, else TPS2, on the PHY and then on the
sink; only `phase` is written (R195, R196). The write is answered after at most four failed attempts
(R67). -/
def Obligations.EqSetupSelectsRichest : Prop :=
  ∀ (s : State) (e : Env) (w : Attempts), s.held = Held.empty → w.answered = true →
    s.env = e.before ⟨w.responses, 1, [], w.waits, []⟩ →
    exec .stEqualizationSetup s = .next {
      s.afterAux e (
        if s.ses.capTps4 = true then .phy .setPattern 4 :: w.writeEvents 0x102 [0x07]
        else if s.ses.capTps3 = true then .phy .setPattern 3 :: w.writeEvents 0x102 [0x23]
        else .phy .setPattern 2 :: w.writeEvents 0x102 [0x22]) w with
      st := .equalization, ses.phase := .eqSetup }

/-- An `Equalization` round whose status lost CR-done on an active lane, has all active lanes equalized,
locked and aligned, or has neither with the retries used up: `ReduceLinkRate`, `Success`, or `Failed` with
`TRAINING_EXHAUSTED`, in this order; only `phase` is written (R197 to R199, R201). The write and the read are
each answered after at most four failed attempts (R66, R67). -/
def Obligations.EqualizationLeaves : Prop :=
  ∀ (s : State) (e : Env) (w b : Attempts), s.held = Held.empty → w.answered = true → b.answered = true →
    s.env = e.before ⟨w.responses ++ b.responses, 1, [], w.waits + 1 + b.waits, [false]⟩ →
    let t := parseStatus3 Config.hw (b.bytes 3)
    let n := s.ses.curLanes.toNat
    let locked := allSet t.lanes.eq n = true ∧ allSet t.lanes.sl n = true ∧ t.align = true
    let u := s.afterAux e (roundEvents s 3 w b) b
    (allSet t.lanes.cr n = false →
      exec .stEqualization s = .next { u with st := .reduceLinkRate, ses.phase := .eq }) ∧
    (allSet t.lanes.cr n = true → locked →
      exec .stEqualization s = .next { u with st := .success, ses.phase := .eq }) ∧
    (allSet t.lanes.cr n = true → ¬ locked → 5 ≤ s.ses.eqRetryCnt.toNat →
      exec .stEqualization s = .next { u with
        st := .failed, failCode := .trainingExhausted, ses.phase := .eq })

/-- An `Equalization` round that kept CR, did not succeed and has retries left: the adjust request is
read and adopted on all four lanes whether or not it differs, `eq_retry_cnt` grows by one, and the state is
entered again (R202). Each AUX transaction is answered after at most four failed attempts (R66, R67). -/
def Obligations.EqualizationRetries : Prop :=
  ∀ (s : State) (e : Env) (w b a : Attempts), s.held = Held.empty →
    w.answered = true → b.answered = true → a.answered = true →
    s.env = e.before ⟨w.responses ++ b.responses ++ a.responses, 1, [],
      w.waits + 1 + b.waits + a.waits, [false]⟩ →
    let t := parseStatus3 Config.hw (b.bytes 3)
    let n := s.ses.curLanes.toNat
    allSet t.lanes.cr n = true →
    ¬ (allSet t.lanes.eq n = true ∧ allSet t.lanes.sl n = true ∧ t.align = true) →
    s.ses.eqRetryCnt.toNat < 5 →
    exec .stEqualization s = .next {
      s.afterAux e (roundEvents s 3 w b ++ a.readEvents 0x206 2) a with
      st := .equalization,
      lanes := adoptLanes Config.hw (parseAdjust (a.bytes 2)) s.lanes,
      ses.phase := .eq, ses.eqRetryCnt := s.ses.eqRetryCnt + 1 }

/-- `Success`: the Normal pattern on the PHY, then 0x00 in `TRAINING_PATTERN_SET`, answered after at most
four failed attempts, then `Done(OK)` with the negotiated pair; `phase` is not written (R67, R136, R200). -/
def Obligations.SuccessCompletes : Prop :=
  ∀ (s : State) (e : Env) (w : Attempts), s.held = Held.empty → w.answered = true →
    s.env = e.before ⟨w.responses, 1, [], w.waits, []⟩ →
    exec .stSuccess s = .next (completed (s.result .ok)
      (s.afterAux e (.phy .setPattern 0 :: w.writeEvents 0x102 [0x00]) w))

/-! ### Terminal states -/

/-- `Failed` whose courtesy write is answered, after at most four failed attempts: that write of 0x00 to
`TRAINING_PATTERN_SET`, no PHY operation, then `Done` with the pending code, one of `TRAINING_EXHAUSTED`,
`CAPABILITY_MISMATCH` and `AUX_TRANSPORT_ERROR` (R67, R264). -/
def Obligations.FailedCompletes : Prop :=
  ∀ (s : State) (e : Env) (w : Attempts), s.held = Held.empty → w.answered = true →
    s.env = e.before ⟨w.responses, 0, [], w.waits, []⟩ →
    let code : ResCode := match s.failCode with
      | .trainingExhausted => .trainingExhausted
      | .capabilityMismatch => .capabilityMismatch
      | .auxTransportError => .auxTransportError
    exec .stFailed s = .next (completed (s.result code) (s.afterAux e (w.writeEvents 0x102 [0x00]) w))

/-- `Failed` whose courtesy write fails five times: the exception is swallowed, and `Done` follows with
the code `Failed` was entered with: `TRAINING_EXHAUSTED`, `CAPABILITY_MISMATCH` or `AUX_TRANSPORT_ERROR`
(R264, R274). -/
def Obligations.FailedSwallowsAuxFail : Prop :=
  ∀ (s : State) (e : Env) (x : Attempts), s.held = Held.empty → x.failed = true →
    s.env = e.before ⟨x.responses, 0, [], 4, []⟩ →
    let code : ResCode := match s.failCode with
      | .trainingExhausted => .trainingExhausted
      | .capabilityMismatch => .capabilityMismatch
      | .auxTransportError => .auxTransportError
    exec .stFailed s = .next (completed (s.result code) {
      s.afterPorts e (x.writeEvents 0x102 [0x00]) with auxTry := 4 })

/-- `LinkUnplugged`: `Done(LINK_UNPLUGGED)` and nothing else (R265). -/
def Obligations.LinkUnpluggedCompletes : Prop :=
  ∀ s : State, s.held = Held.empty →
    exec .stLinkUnplugged s = .next (completed (s.result .linkUnplugged) (dropRequests s))

/-- `HealthCheck` whose reads are answered, each after at most four failed attempts: these two reads and
one PHY sample, in that order, then `Done` with the verdict, `phase` being `HEALTH` (R66, R245). -/
def Obligations.HealthCheckCompletes : Prop :=
  ∀ (s : State) (e : Env) (b c : Attempts) (p : PhySample), s.held = Held.empty →
    b.answered = true → c.answered = true →
    s.env = e.before ⟨b.responses ++ c.responses, 0, [p], b.waits + c.waits, []⟩ →
    let verdict := healthVerdict Config.hw (b.bytes 2) (c.bytes 3) p
    exec .stHealthCheck s = .next (completed
      ⟨true, s.cmd.op, verdict, .health, s.ses.curRate, s.ses.curLanes⟩ {
        s.afterAux e (b.readEvents 0x100 2 ++ c.readEvents 0x202 3 ++ [.phyRd p]) c with
        ses.phase := .health })

/-- The verdict is `OK` exactly when the sink's rate byte is a rate code and its lane field a lane count,
both equal the PHY's, and, if `LINK_STATUS_UPDATED` is set, every active lane shows CR, EQ and symbol lock
and the lanes are aligned; else it is `RETRAIN_REQUIRED` (R245 to R247). -/
def Obligations.HealthVerdictRule : Prop :=
  ∀ (b0 b1 s0 s1 s2 : Byte) (p : PhySample),
    let n := (b1 &&& 0x1F).toNat
    let v := parseLaneStatus2 [s0, s1]
    let healthy := (b0 = 0x06 ∨ b0 = 0x0A ∨ b0 = 0x14 ∨ b0 = 0x1E) ∧ (n = 1 ∨ n = 2 ∨ n = 4) ∧
      b0 = p.rateCode ∧ n = p.lanes.toNat ∧
      (s2.getLsbD 7 = true → allSet v.cr n = true ∧ allSet v.eq n = true ∧ allSet v.sl n = true ∧
        s2.getLsbD 0 = true)
    (healthy → healthVerdict Config.hw [b0, b1] [s0, s1, s2] p = .ok) ∧
    (¬ healthy → healthVerdict Config.hw [b0, b1] [s0, s1, s2] p = .retrainRequired)

/-- `HealthCheck` whose first read fails five times: `Done(AUX_TRANSPORT_ERROR)` at once; the second read
is not attempted, the PHY is not sampled, and nothing is written. And one whose first read is answered and
whose second fails five times: `Done(AUX_TRANSPORT_ERROR)`, the PHY is not sampled, and nothing is written
(R245, R263, R270). -/
def Obligations.HealthCheckAuxFails : Prop :=
  ∀ (s : State) (e : Env) (b c : Attempts), s.held = Held.empty →
    let fails := fun es : List Event => completed
      ⟨true, s.cmd.op, .auxTransportError, .health, s.ses.curRate, s.ses.curLanes⟩ {
        s.afterPorts e es with auxTry := 4, ses.phase := .health }
    (b.failed = true → s.env = e.before ⟨b.responses, 0, [], 4, []⟩ →
      exec .stHealthCheck s = .next (fails (b.readEvents 0x100 2))) ∧
    (b.answered = true → c.failed = true →
      s.env = e.before ⟨b.responses ++ c.responses, 0, [], b.waits + 4, []⟩ →
      exec .stHealthCheck s = .next (fails (b.readEvents 0x100 2 ++ c.readEvents 0x202 3)))

/-- A poll point that reads 1 abandons the action before any other transaction of it: `LinkUnplugged` next,
and no register but `phase` and `st` changed (R160, R170, R197, R268, R271). -/
def Obligations.UnplugAbandons : Prop :=
  ∀ (s : State) (e : Env), s.held = Held.empty → s.env = e.before ⟨[], 0, [], 0, [true]⟩ →
    let u : State := { s.afterPorts e [.poll true] with st := .linkUnplugged }
    exec .stPhySetup s = .next { u with ses.phase := .phySetup } ∧
    exec .stClockRecovery s = .next { u with ses.phase := .cr } ∧
    exec .stEqualization s = .next { u with ses.phase := .eq }

/-! ### The rows below the state actions -/

/-- Each RES row completes the command with its code and its fields: result registers, event `DONE`,
`Idle`, the `done` pulse (R92, R93, R136; that a row is a completion is log entry 8). And `Done(code)` is
the row of its code with the fields of R136. -/
def Obligations.ResultRowsComplete : Prop :=
  (∀ (op : BitVec 2) (ph : Phase) (r : RateIdx) (n : LaneCount) (s : State),
    let t := fun code : ResCode => { completed ⟨true, op, code, ph, r, n⟩ s with held := Held.empty }
    exec (.resOk op ph r n) s = .next (t .ok) ∧
    exec (.resLinkUnplugged op ph r n) s = .next (t .linkUnplugged) ∧
    exec (.resTrainingExhausted op ph r n) s = .next (t .trainingExhausted) ∧
    exec (.resCapabilityMismatch op ph r n) s = .next (t .capabilityMismatch) ∧
    exec (.resAuxTransportError op ph r n) s = .next (t .auxTransportError) ∧
    exec (.resRetrainRequired op ph r n) s = .next (t .retrainRequired) ∧
    exec (.resBadCommand op ph r n) s = .next (t .badCommand)) ∧
  (∀ (code : ResCode) (s : State),
    exec (s.result code).instr s = .next (endAction (doneCmd code s)))

/-- Each PHASE row writes its code to `phase` and nothing else (R29, R94; that a row is this write is log
entry 9). -/
def Obligations.PhaseRowsWrite : Prop :=
  ∀ s : State,
    exec .phaseNone s = .next { s with ses.phase := .none } ∧
    exec .phaseCapNeg s = .next { s with ses.phase := .capNeg } ∧
    exec .phasePhySetup s = .next { s with ses.phase := .phySetup } ∧
    exec .phaseCr s = .next { s with ses.phase := .cr } ∧
    exec .phaseEqSetup s = .next { s with ses.phase := .eqSetup } ∧
    exec .phaseEq s = .next { s with ses.phase := .eq } ∧
    exec .phaseHealth s = .next { s with ses.phase := .health }

/-- Each PHY operation, acknowledged: one `PHY` event with the argument of R108, and no register changes
(R72, R108). -/
def Obligations.PhyRowsAcknowledged : Prop :=
  ∀ (s : State) (e : Env), s.held = Held.empty → s.env = e.before ⟨[], 1, [], 0, []⟩ →
    (∀ a, exec (.phyReset a) s = .next (s.afterPorts e [.phy .reset (if a then 1 else 0)])) ∧
    (∀ r, exec (.phySetLinkRate r) s = .next (s.afterPorts e [.phy .setLinkRate (0#14 ++ r)])) ∧
    (∀ n, exec (.phySetLaneCount n) s = .next (s.afterPorts e [.phy .setLaneCount (0#13 ++ n)])) ∧
    exec .phyModeSetting s = .next (s.afterPorts e [.phy .modeSetting 0]) ∧
    exec .phyPostInit s = .next (s.afterPorts e [.phy .postInit 0]) ∧
    exec .phyWaitPllLock s = .next (s.afterPorts e [.phy .waitPllLock 0]) ∧
    (∀ sw pe, ∃ arg : BitVec 16, (∀ i : LaneIdx, arg.extractLsb' (2 * i.val) 2 = sw.get i ∧
        arg.extractLsb' (8 + 2 * i.val) 2 = pe.get i) ∧
      exec (.phySetVoltPe sw pe) s = .next (s.afterPorts e [.phy .setVoltPe arg])) ∧
    (∀ p, exec (.phySetPattern p) s = .next (s.afterPorts e [.phy .setPattern (0#13 ++ p.code)])) ∧
    (∀ a, exec (.phySetEnhFrame a) s = .next (s.afterPorts e [.phy .setEnhFrame (if a then 1 else 0)]))

/-- `AUX_RD`, answered `ok` after up to four failed attempts: one event for each attempt, a back-off wait
before each retry, and no register but `aux_try` changes (R66). -/
def Obligations.AuxReadRetries : Prop :=
  ∀ (addr : Addr) (len : BitVec 5) (s : State) (e : Env) (x : Attempts),
    s.held = Held.empty → x.answered = true → s.env = e.before ⟨x.responses, 0, [], x.waits, []⟩ →
    exec (.auxRd addr len) s = .next (s.afterAux e (x.readEvents addr len.toNat) x)

/-- `AUX_WR`, answered `ok` after up to four failed attempts: the same with its bytes, byte `k` being bits
`8k+7:8k` of the data (R67, R107). -/
def Obligations.AuxWriteRetries : Prop :=
  ∀ (addr : Addr) (len : BitVec 5) (data : BitVec 128) (s : State) (e : Env) (x : Attempts),
    s.held = Held.empty → x.answered = true → s.env = e.before ⟨x.responses, 0, [], x.waits, []⟩ →
    let v := (List.range len.toNat).map fun k => data.extractLsb' (8 * k) 8
    exec (.auxWr addr len data) s = .next (s.afterAux e (x.writeEvents addr v) x)

/-- A fifth failed attempt raises `AuxFail`. In every action of a `TRAIN` below, the events are those of the
lines before the failing one and of its five attempts, and the state is `Failed` with `AUX_TRANSPORT_ERROR`,
`phase` being the state's and no other register changed: each of the two writes of `PhySetup`; the lane-set
write, the status read and the adjust read of a round of `ClockRecovery` and of `Equalization`; the write of
`EqualizationSetup`; and the write of `Success`, which does not answer `OK` (R66, R67, R200, R263). An `AUX_RD`
or `AUX_WR` executed alone raises it too; in `HealthCheck` it is `Done(AUX_TRANSPORT_ERROR)` (R263), in a state
that has no rule log entry 11. -/
def Obligations.AuxFailAfterFive : Prop :=
  (∀ (addr : Addr) (len : BitVec 5) (data : BitVec 128) (s : State) (e : Env) (x : Attempts),
    s.held = Held.empty → x.failed = true → s.env = e.before ⟨x.responses, 0, [], 4, []⟩ →
    let raised := fun es : List Event =>
      if s.st = .healthCheck then
        completed (s.result .auxTransportError) { s.afterPorts e es with auxTry := 4 }
      else s.afterAuxFail e es
    exec (.auxRd addr len) s = .next (raised (x.readEvents addr len.toNat)) ∧
    exec (.auxWr addr len data) s = .next (raised (x.writeEvents addr (dataBytes data len.toNat)))) ∧
  (∀ (s : State) (e : Env) (p : PhySample) (x y : Attempts), s.held = Held.empty →
    let start := [.poll false, .phyRd p] ++ phySetupBlock s p
    let raised := fun es : List Event => { s.afterAuxFail e es with ses.phase := .phySetup }
    (x.failed = true →
      s.env = e.before ⟨x.responses, (phySetupBlock s p).length, [p], 4, [false]⟩ →
      exec .stPhySetup s = .next (raised (start ++ x.writeEvents 0x100 s.linkConfig))) ∧
    (x.answered = true → y.failed = true →
      s.env = e.before ⟨x.responses ++ y.responses, (phySetupBlock s p).length + 1, [p], x.waits + 4,
        [false]⟩ →
      exec .stPhySetup s = .next (raised (start ++ x.writeEvents 0x100 s.linkConfig ++
        [.phy .setPattern 1] ++ y.writeEvents 0x102 [0x21])))) ∧
  (∀ (s : State) (e : Env) (w b a : Attempts), s.held = Held.empty →
    let n := s.ses.curLanes.toNat
    let cr := fun es : List Event => { s.afterAuxFail e es with ses.phase := .cr }
    let eq := fun es : List Event => { s.afterAuxFail e es with ses.phase := .eq }
    (w.failed = true → s.env = e.before ⟨w.responses, 1, [], 4, [false]⟩ →
      exec .stClockRecovery s = .next (cr (roundStartEvents s w)) ∧
      exec .stEqualization s = .next (eq (roundStartEvents s w))) ∧
    (w.answered = true → b.failed = true →
      s.env = e.before ⟨w.responses ++ b.responses, 1, [], w.waits + 1 + 4, [false]⟩ →
      exec .stClockRecovery s = .next (cr (roundEvents s 2 w b)) ∧
      exec .stEqualization s = .next (eq (roundEvents s 3 w b))) ∧
    (w.answered = true → b.answered = true → a.failed = true →
      s.env = e.before ⟨w.responses ++ b.responses ++ a.responses, 1, [], w.waits + 1 + b.waits + 4,
        [false]⟩ →
      (allSet (parseLaneStatus2 (b.bytes 2)).cr n = false → allMaxSwing Config.hw s.lanes n = false →
        exec .stClockRecovery s = .next (cr (roundEvents s 2 w b ++ a.readEvents 0x206 2))) ∧
      (let t := parseStatus3 Config.hw (b.bytes 3)
       allSet t.lanes.cr n = true →
       ¬ (allSet t.lanes.eq n = true ∧ allSet t.lanes.sl n = true ∧ t.align = true) →
       s.ses.eqRetryCnt.toNat < 5 →
        exec .stEqualization s = .next (eq (roundEvents s 3 w b ++ a.readEvents 0x206 2))))) ∧
  (∀ (s : State) (e : Env) (w : Attempts), s.held = Held.empty → w.failed = true →
    s.env = e.before ⟨w.responses, 1, [], 4, []⟩ →
    exec .stEqualizationSetup s = .next { s.afterAuxFail e
      (.phy .setPattern s.eqPattern.1 :: w.writeEvents 0x102 [s.eqPattern.2]) with ses.phase := .eqSetup } ∧
    exec .stSuccess s = .next (s.afterAuxFail e (.phy .setPattern 0 :: w.writeEvents 0x102 [0x00])))

/-- Each row of `TRAINING_PATTERN_SET` writes its one byte at 0x102, answered after at most four failed
attempts (R67, R98; that a row is this write is log entry 10). -/
def Obligations.PatternRowsWrite : Prop :=
  ∀ (s : State) (e : Env) (w : Attempts), s.held = Held.empty → w.answered = true →
    s.env = e.before ⟨w.responses, 0, [], w.waits, []⟩ →
    exec .tpsetNormal s = .next (s.afterAux e (w.writeEvents 0x102 [0x00]) w) ∧
    exec .tpsetTps1 s = .next (s.afterAux e (w.writeEvents 0x102 [0x21]) w) ∧
    exec .tpsetTps2 s = .next (s.afterAux e (w.writeEvents 0x102 [0x22]) w) ∧
    exec .tpsetTps3 s = .next (s.afterAux e (w.writeEvents 0x102 [0x23]) w) ∧
    exec .tpsetTps4 s = .next (s.afterAux e (w.writeEvents 0x102 [0x07]) w)

/-- Each row of `LINK_BW_SET` is the 2-byte link configuration write at 0x100 with its rate code, and
`cur_lanes` with the enhanced-frame bit as byte 1, answered after at most four failed attempts (R67, R96, R99,
R100, R163; that a row is this burst is log entry 10). -/
def Obligations.RateRowsWrite : Prop :=
  ∀ (s : State) (e : Env) (w : Attempts), s.held = Held.empty → w.answered = true →
    s.env = e.before ⟨w.responses, 0, [], w.waits, []⟩ →
    let lcs := s.ses.curLanes.setWidth 8 ||| (if s.ses.capEfc then 0x80 else 0x00)
    exec .rate162 s = .next (s.afterAux e (w.writeEvents 0x100 [0x06, lcs]) w) ∧
    exec .rate27 s = .next (s.afterAux e (w.writeEvents 0x100 [0x0A, lcs]) w) ∧
    exec .rate54 s = .next (s.afterAux e (w.writeEvents 0x100 [0x14, lcs]) w) ∧
    exec .rate81 s = .next (s.afterAux e (w.writeEvents 0x100 [0x1E, lcs]) w)

/-! ### Registers, lanes and the parser -/

/-- The fields of the result word (R92). -/
def Obligations.ResultWordFields : Prop :=
  ∀ s : State,
    s.resWord.extractLsb' 0 1 = BitVec.ofBool s.res.valid ∧ s.resWord.extractLsb' 1 2 = s.res.op ∧
    s.resWord.extractLsb' 3 3 = s.res.code.code ∧ s.resWord.extractLsb' 6 3 = s.res.phase.code ∧
    s.resWord.extractLsb' 9 2 = s.res.rate ∧ s.resWord.extractLsb' 11 3 = s.res.lanes ∧
    s.resWord.extractLsb' 14 2 = 0

/-- The lane-set byte: `(pe << 3) | sw | (max_pe << 2) | (max_sw << 5)`, a flag being 1 when its counter is
at least 5, with bits 7 and 6 clear (R233); and its decoding, `sw = b[1:0]`, `max_pe = b[2]`, `pe = b[4:3]`,
`max_sw = b[5]`, gives the four fields of every encoded byte back (R236). What `ProgramLanes` drives of a
lane file: the argument of the PHY operation has the swing of lane `i` in bits `2i+1:2i` and its
pre-emphasis in bits `8+2i+1:8+2i`, and the write has the bytes of the four lanes, lane 0 first (R235). -/
def Obligations.LaneSetByteRoundTrip : Prop :=
  (∀ l : Lane,
    l.setByte Config.hw = (l.pe.setWidth 8 <<< 3) ||| l.sw.setWidth 8 |||
      ((if 5 ≤ l.peRep.toNat then (1 : Byte) else 0) <<< 2) |||
      ((if 5 ≤ l.swRep.toNat then (1 : Byte) else 0) <<< 5) ∧
    (l.setByte Config.hw).extractLsb' 6 2 = 0) ∧
  (∀ b : Byte, laneSetDecode Config.hw b = {
    sw := b.extractLsb' 0 2, maxPe := b.getLsbD 2, pe := b.extractLsb' 3 2, maxSw := b.getLsbD 5 }) ∧
  (∀ f : LaneSet, laneSetDecode Config.hw (laneSetEncode Config.hw f) = f) ∧
  (∀ l : Lane, laneSetDecode Config.hw (l.setByte Config.hw) = {
    sw := l.sw, pe := l.pe, maxSw := decide (5 ≤ l.swRep.toNat), maxPe := decide (5 ≤ l.peRep.toNat) }) ∧
  (∀ (f : Lanes Lane) (i : LaneIdx),
    (lanesArg f).extractLsb' (2 * i.val) 2 = (f.get i).sw ∧
    (lanesArg f).extractLsb' (8 + 2 * i.val) 2 = (f.get i).pe) ∧
  (∀ f : Lanes Lane, laneSetBytes Config.hw f =
    [(f.get 0).setByte Config.hw, (f.get 1).setByte Config.hw, (f.get 2).setByte Config.hw,
      (f.get 3).setByte Config.hw])

/-- `Adopt`: on every lane the requested values are taken, and each repetition counter counts a kept value
up to 5 and returns to 0 on a changed one (R234). -/
def Obligations.AdoptRule : Prop :=
  ∀ (q : AdjustReq) (f : Lanes Lane) (i : LaneIdx),
    (adoptLanes Config.hw q f).get i = {
      sw := q.sw.get i, pe := q.pe.get i,
      swRep := if q.sw.get i = (f.get i).sw then BitVec.ofNat 3 (min ((f.get i).swRep.toNat + 1) 5) else 0,
      peRep := if q.pe.get i = (f.get i).pe then BitVec.ofNat 3 (min ((f.get i).peRep.toNat + 1) 5) else 0 }

/-- After any number of adoptions from the reset lane file, `sw_rep[i]` is the number of consecutive
adoptions, ending with the last one, that left `sw[i]` unchanged, saturated at 5, and `pe_rep[i]` the same
for `pe[i]` (R34). -/
def Obligations.RepetitionCounters : Prop :=
  ∀ (qs : List AdjustReq) (i : LaneIdx),
    let l := (qs.foldl (fun f q => adoptLanes Config.hw q f) (Lanes.replicate Lane.reset)).get i
    l.swRep.toNat = min (keptAtEnd 0 0 (qs.map fun q => q.sw.get i)) 5 ∧
    l.peRep.toNat = min (keptAtEnd 0 0 (qs.map fun q => q.pe.get i)) 5

/-- The three tests of the active lanes, which are the lanes below `n`. `AllSet(v, n)` is `v[i]` = 1 for each
of them, that is `v & mask(n) == mask(n)` with the masks 0b0001, 0b0011, 0b1111, bit `i` of `v` as a mask
being `v[i]` (R223). `AllMaxSwing(n)` is a swing repetition counter of at least 5 on each of them, whatever
the pre-emphasis counters and the other lanes hold (R237). `SameAsRequested` is the requested swing and the
requested pre-emphasis equal to the lane's on each of them (R238). -/
def Obligations.AllSetMask : Prop :=
  (∀ v : Lanes Bool,
    (allSet v 1 = true ↔ laneMask v &&& 0b0001 = 0b0001) ∧
    (allSet v 2 = true ↔ laneMask v &&& 0b0011 = 0b0011) ∧
    (allSet v 4 = true ↔ laneMask v &&& 0b1111 = 0b1111) ∧
    ∀ i : LaneIdx, (laneMask v).getLsbD i.val = v.get i) ∧
  (∀ n ∈ [1, 2, 4],
    (∀ v : Lanes Bool, allSet v n = true ↔ ∀ i : LaneIdx, i.val < n → v.get i = true) ∧
    (∀ f : Lanes Lane, allMaxSwing Config.hw f n = true ↔
      ∀ i : LaneIdx, i.val < n → 5 ≤ (f.get i).swRep.toNat) ∧
    (∀ (q : AdjustReq) (f : Lanes Lane), sameAsRequested q f n = true ↔
      ∀ i : LaneIdx, i.val < n → q.sw.get i = (f.get i).sw ∧ q.pe.get i = (f.get i).pe))

/-- What the status parser returns, bit by bit, and what it ignores. Lane `i` has the status bits `4(i mod
2)`, `+1` and `+2` of byte `i / 2` (R216, R217), the requested swing and pre-emphasis in bits `4(i mod 2)+1:4(i
mod 2)` and the two above (R221); the align bit is bit 0 and the update bit bit 7 of the third byte (R218,
R219); the 6-byte decode is the 3-byte decode of bytes 2 to 4 with byte 0 as the sink count (R220); the
capabilities are the fields of R222. And two inputs that differ only in the bits R224 lists give equal
outputs. -/
def Obligations.ParserIgnoresBits : Prop :=
  (∀ (b0 b1 : Byte) (i : LaneIdx),
    let b := if i.val < 2 then b0 else b1
    let k := 4 * (i.val % 2)
    let v := parseLaneStatus2 [b0, b1]
    let q := parseAdjust [b0, b1]
    v.cr.get i = b.getLsbD k ∧ v.eq.get i = b.getLsbD (k + 1) ∧ v.sl.get i = b.getLsbD (k + 2) ∧
    q.sw.get i = b.extractLsb' k 2 ∧ q.pe.get i = b.extractLsb' (k + 2) 2) ∧
  (∀ b0 b1 b2 b3 b4 b5 : Byte,
    parseStatus3 Config.hw [b0, b1, b2] =
      { lanes := parseLaneStatus2 [b0, b1], align := b2.getLsbD 0, upd := b2.getLsbD 7 } ∧
    parseStatus6 Config.hw [b0, b1, b2, b3, b4, b5] =
      { status := parseStatus3 Config.hw [b2, b3, b4], sinkCountRaw := b0 }) ∧
  (∀ c : List Byte,
    let p := parseCaps Config.hw c
    let n := (c.getD 2 0 &&& 0x1F).toNat
    p.maxLanes.toNat = n ∧ (p.lanesLegal = true ↔ n = 1 ∨ n = 2 ∨ n = 4) ∧
    (∀ r : RateIdx, (p.rateLegal = true ∧ p.maxRate = r) ↔
      (c.getD 1 0 = 0x06 ∧ r = 0) ∨ (c.getD 1 0 = 0x0A ∧ r = 1) ∨ (c.getD 1 0 = 0x14 ∧ r = 2) ∨
      (c.getD 1 0 = 0x1E ∧ r = 3)) ∧
    (p.rateLegal = false → p.maxRate = 0) ∧
    p.tps3 = (c.getD 2 0).getLsbD 6 ∧ p.efc = (c.getD 2 0).getLsbD 7 ∧ p.tps4 = (c.getD 3 0).getLsbD 7 ∧
    p.rdInterval = (c.getD 14 0).extractLsb' 0 7) ∧
  (∀ b0 b1 : Byte, parseLaneStatus2 [b0, b1] = parseLaneStatus2 [b0 &&& 0x77, b1 &&& 0x77]) ∧
  (∀ b0 b1 b2 : Byte, parseStatus3 Config.hw [b0, b1, b2] =
    parseStatus3 Config.hw [b0 &&& 0x77, b1 &&& 0x77, b2 &&& 0x81]) ∧
  (∀ b0 b1 b2 b3 b4 b5 c1 c5 : Byte, parseStatus6 Config.hw [b0, b1, b2, b3, b4, b5] =
    parseStatus6 Config.hw [b0, c1, b2 &&& 0x77, b3 &&& 0x77, b4 &&& 0x81, c5]) ∧
  (∀ c d : List Byte, c.getD 1 0 = d.getD 1 0 → c.getD 2 0 &&& 0xDF = d.getD 2 0 &&& 0xDF →
    c.getD 3 0 &&& 0x80 = d.getD 3 0 &&& 0x80 → c.getD 14 0 &&& 0x7F = d.getD 14 0 &&& 0x7F →
    parseCaps Config.hw c = parseCaps Config.hw d)

/-! ### Invariants and whole-machine rules -/

/-- The reset state meets the invariant; the values of it that the model chose are those of log entries 2,
3, 4, 7 and 17. -/
def Obligations.ResetMeetsInvariant : Prop := State.reset.inv = true

/-- Every step keeps the invariant: the counters in their ranges, `cur_lanes` a lane count from `PhySetup`
to `Success`, fresh counters and lanes at each ladder step, the phase a result can carry, a legal result
word, at most one request outstanding and none in `Idle` (R26, R30 to R34, R38, R76, R94, R134). -/
def Obligations.StepKeepsInvariant : Prop :=
  ∀ s t : State, s.inv = true → step s = .next t → t.inv = true

/-- `st` changes only along the edges of R22; a state that waits for an answer keeps its code. -/
def Obligations.TransitionTable : Prop :=
  ∀ s t : State, s.env.rstN = true → step s = .next t →
    t.st ∈ edgesFrom s.st ∨ (t.st = s.st ∧ t.waiting = true)

/-- Every event of a step is one the rules allow: an access of R70's list, a PHY operation with an argument
of R108, a wait of R110; and events are only added (R60, R70, R80, R108, R110). -/
def Obligations.EventsAreLegal : Prop :=
  ∀ s t : State, s.inv = true → step s = .next t →
    ∃ es, t.trace = s.trace ++ es ∧ ∀ ev ∈ es, eventLegal Config.hw ev = true

/-- Each register has the writers its rule names: the command latch acceptance, the capability registers
and `cur_lanes` `CapNeg`, `cur_rate` `CapNeg` and the ladder, the lane file and the counters the loops and
the ladder; and `phase` is written by the first line of an action or not at all (R24 to R34). The pending
code of `Failed` is written by entering that state and by nothing else, with a code that the state it is
entered from can raise (R261 to R264). So an exception leaves the session registers at the values of the
failing line (R271). -/
def Obligations.RegisterWriters : Prop :=
  ∀ s t : State, s.env.rstN = true → s.st ≠ .idle → step s = .next t →
    t.cmd = s.cmd ∧ t.ses.phase = phaseDuring s.st s.ses.phase ∧
    (s.st ≠ .capNeg → t.ses.curLanes = s.ses.curLanes ∧ t.ses.capTps3 = s.ses.capTps3 ∧
      t.ses.capTps4 = s.ses.capTps4 ∧ t.ses.capEfc = s.ses.capEfc ∧
      t.ses.rdInterval = s.ses.rdInterval) ∧
    (s.st ≠ .capNeg → s.st ≠ .reduceLinkRate → t.ses.curRate = s.ses.curRate) ∧
    (s.st ≠ .clockRecovery → s.st ≠ .equalization → s.st ≠ .reduceLinkRate → t.lanes = s.lanes) ∧
    (s.st ≠ .clockRecovery → s.st ≠ .reduceLinkRate →
      t.ses.crStallCnt = s.ses.crStallCnt ∧ t.ses.totalRetryCnt = s.ses.totalRetryCnt) ∧
    (s.st ≠ .equalization → s.st ≠ .reduceLinkRate → t.ses.eqRetryCnt = s.ses.eqRetryCnt) ∧
    (s.st = .failed ∨ t.st ≠ .failed → t.failCode = s.failCode) ∧
    (s.st ≠ .failed → t.st = .failed → t.failCode ∈ failCodesFrom s.st) ∧
    (t.st = .failed ∨ t.st = .linkUnplugged → t.lanes = s.lanes ∧ t.ses.curRate = s.ses.curRate ∧
      t.ses.curLanes = s.ses.curLanes ∧ t.ses.crStallCnt = s.ses.crStallCnt ∧
      t.ses.eqRetryCnt = s.ses.eqRetryCnt ∧ t.ses.totalRetryCnt = s.ses.totalRetryCnt)

/-- Only `Done` writes the result registers, it writes what R136 says, and `done` is 1 after exactly the
steps that completed a command (R36, R37, R136; a step for a cycle is log entry 16). -/
def Obligations.OnlyDoneWritesResult : Prop :=
  ∀ s t : State, s.env.rstN = true → step s = .next t →
    (t.out.done = false ∧ t.res = s.res ∧
      ∃ es, t.trace = s.trace ++ es ∧ ∀ r, Event.done r ∉ es) ∨
    (t.out.done = true ∧ t.st = .idle ∧ (∃ code, t.res = t.result code) ∧
      ∃ es, t.trace = s.trace ++ es ++ [.done t.res] ∧ ∀ r, Event.done r ∉ es)

/-- The unplug flag is polled at the three poll points only: once, before every other transaction of an
action of `PhySetup`, `ClockRecovery` or `Equalization`, and a poll that reads 1 is the action's last event;
in every other state it is never polled (R268). -/
def Obligations.PollPoints : Prop :=
  ∀ s t : State, s.env.rstN = true → s.held = Held.empty → step s = .next t →
    ∃ es, t.trace = s.trace ++ es ∧
      (s.st ∉ pollStates → ∀ ev ∈ es, eventIsPoll ev = false) ∧
      (s.st ∈ pollStates → ∃ b rest, es = .poll b :: rest ∧ (∀ ev ∈ rest, eventIsPoll ev = false) ∧
        (b = true → rest = [] ∧ t.st = .linkUnplugged))

/-- A block that waits has a request whose answer has not come, stays in its state, busy, and has written
no register but `phase` and `aux_try` (R76, R299). -/
def Obligations.WaitingIsUnanswered : Prop :=
  ∀ s t : State, s.inv = true → s.env.rstN = true → step s = .next t → t.waiting = true →
    t.outstanding = 1 ∧
    (t.out.auxReq.isSome = true → t.env.auxRsps = []) ∧
    (t.out.phyReq.isSome = true → t.env.phyAcks = 0) ∧
    (t.out.waitReq.isSome = true → t.env.waitDones = 0) ∧
    t.st = s.st ∧ t.busy = true ∧ t.cmd = s.cmd ∧ t.failCode = s.failCode ∧ t.lanes = s.lanes ∧
    t.res = s.res ∧ t.out.done = false ∧
    t.ses = { s.ses with phase := phaseDuring s.st s.ses.phase }

/-- Waiting changes nothing: a block that waited and got its answers later is where it would be had they
been at hand at once (R76; how the model waits is log entry 3). -/
def Obligations.WaitingIsTransparent : Prop :=
  ∀ (s t : State) (aux : List AuxRsp) (acks waits : Nat), s.env.rstN = true → s.st ≠ .idle →
    s.held = Held.empty → step s = .next t → t.waiting = true →
    step { t with env := t.env.later aux acks waits } = step { s with env := s.env.later aux acks waits }

/-- The health check drives nothing outside the block, and two checks against the same answers (each read
answered after at most four failed attempts) make the same events and the same result, whatever the block did
before (R66, R249). -/
def Obligations.HealthCheckIsReadOnly : Prop :=
  (∀ s t : State, exec .stHealthCheck s = .next t →
    ∃ es, t.trace = s.trace ++ es ∧ ∀ ev ∈ es, eventDrives ev = false) ∧
  (∀ (x y : BitVec 5) (s s' u u' t t' : State) (e e' : Env) (b c : Attempts) (p : PhySample),
    s.st = .idle → s'.st = .idle → s.held = Held.empty → s'.held = Held.empty →
    b.answered = true → c.answered = true →
    let h : Held := ⟨b.responses ++ c.responses, 0, [p], b.waits + c.waits, []⟩
    s.env = e.before h → s'.env = e'.before h →
    exec (.checkHealth x) s = .next u → exec .stHealthCheck u = .next t →
    exec (.checkHealth y) s' = .next u' → exec .stHealthCheck u' = .next t' →
    t.res = t'.res ∧ ∃ es, t.trace = u.trace ++ es ∧ t'.trace = u'.trace ++ es)

/-- Every action that ends brings a busy block nearer to the end of its command (R177, R186, R203). -/
def Obligations.RankDecreases : Prop :=
  ∀ s t : State, s.inv = true → s.env.rstN = true → s.st ≠ .idle → step s = .next t →
    t.waiting = true ∨ t.rank Config.hw < s.rank Config.hw

/-- A command ends: a busy block is in `Idle` again, or waits for an answer, after at most as many steps as
its rank, which is at most 160 (R203, R299, R303). -/
def Obligations.CommandEnds : Prop :=
  ∀ s : State, s.inv = true → s.env.rstN = true →
    s.rank Config.hw ≤ 160 ∧
    ∃ k t, k ≤ s.rank Config.hw ∧ Sys2Proof.core.run k s = .next t ∧
      (t.st = .idle ∨ t.waiting = true)

end
end

