-- ==== Sys2Proof/Laws/Config.lean ====
section
/-! SUPPORT. The fields of the parameter record, one lemma each, so that no later proof unfolds it. -/

namespace Sys2Proof

@[simp] theorem hw_maxLanes : Config.hw.maxLanes = 4 := rfl
@[simp] theorem hw_dpcdAddrWidth : Config.hw.dpcdAddrWidth = 20 := rfl
@[simp] theorem hw_ladder : Config.hw.ladder = [3, 2, 1, 0] := rfl
@[simp] theorem hw_crStallMax : Config.hw.crStallMax = 4 := rfl
@[simp] theorem hw_eqRetryMax : Config.hw.eqRetryMax = 5 := rfl
@[simp] theorem hw_totalRetryMax : Config.hw.totalRetryMax = 10 := rfl
@[simp] theorem hw_maxReachThreshold : Config.hw.maxReachThreshold = 5 := rfl
@[simp] theorem hw_auxRetryMax : Config.hw.auxRetryMax = 4 := rfl
@[simp] theorem hw_auxBackoffUs : Config.hw.auxBackoffUs = 50000 := rfl
@[simp] theorem hw_rdIntervalUnitUs : Config.hw.rdIntervalUnitUs = 4000 := rfl
@[simp] theorem hw_rdIntervalMinUs : Config.hw.rdIntervalMinUs = 100 := rfl
@[simp] theorem hw_capAddr : Config.hw.capAddr = 0x000 := rfl
@[simp] theorem hw_capLen : Config.hw.capLen = 16 := rfl
@[simp] theorem hw_capOffMaxRate : Config.hw.capOffMaxRate = 1 := rfl
@[simp] theorem hw_capOffMaxLanes : Config.hw.capOffMaxLanes = 2 := rfl
@[simp] theorem hw_capOffTps4 : Config.hw.capOffTps4 = 3 := rfl
@[simp] theorem hw_addrLinkBwSet : Config.hw.addrLinkBwSet = 0x100 := rfl
@[simp] theorem hw_addrLaneCountSet : Config.hw.addrLaneCountSet = 0x101 := rfl
@[simp] theorem hw_addrTrainingPatternSet : Config.hw.addrTrainingPatternSet = 0x102 := rfl
@[simp] theorem hw_addrTrainingLane0Set : Config.hw.addrTrainingLane0Set = 0x103 := rfl
@[simp] theorem hw_addrSinkCount : Config.hw.addrSinkCount = 0x200 := rfl
@[simp] theorem hw_addrLane01Status : Config.hw.addrLane01Status = 0x202 := rfl
@[simp] theorem hw_addrLane23Status : Config.hw.addrLane23Status = 0x203 := rfl
@[simp] theorem hw_addrAlignStatus : Config.hw.addrAlignStatus = 0x204 := rfl
@[simp] theorem hw_addrAdjustRequest : Config.hw.addrAdjustRequest = 0x206 := rfl
@[simp] theorem hw_tpsetNormal : Config.hw.tpsetNormal = 0x00 := rfl
@[simp] theorem hw_tpsetTps1 : Config.hw.tpsetTps1 = 0x21 := rfl
@[simp] theorem hw_tpsetTps2 : Config.hw.tpsetTps2 = 0x22 := rfl
@[simp] theorem hw_tpsetTps3 : Config.hw.tpsetTps3 = 0x23 := rfl
@[simp] theorem hw_tpsetTps4 : Config.hw.tpsetTps4 = 0x07 := rfl
@[simp] theorem hw_lanesetMaxPeBit : Config.hw.lanesetMaxPeBit = 2 := rfl
@[simp] theorem hw_lanesetMaxSwBit : Config.hw.lanesetMaxSwBit = 5 := rfl
@[simp] theorem hw_rateCode : Config.hw.rateCode = ⟨0x06, 0x0A, 0x14, 0x1E⟩ := rfl
@[simp] theorem hw_capLanesMask : Config.hw.capLanesMask = 0x1F := rfl
@[simp] theorem hw_capTps3Bit : Config.hw.capTps3Bit = 6 := rfl
@[simp] theorem hw_capEfcBit : Config.hw.capEfcBit = 7 := rfl
@[simp] theorem hw_capTps4Bit : Config.hw.capTps4Bit = 7 := rfl
@[simp] theorem hw_lcsLanesMask : Config.hw.lcsLanesMask = 0x1F := rfl
@[simp] theorem hw_lcsEfcBit : Config.hw.lcsEfcBit = 7 := rfl
@[simp] theorem hw_alignDoneBit : Config.hw.alignDoneBit = 0 := rfl
@[simp] theorem hw_linkStatusUpdatedBit : Config.hw.linkStatusUpdatedBit = 7 := rfl
@[simp] theorem hw_capOffRdInterval : Config.hw.capOffRdInterval = 14 := rfl
@[simp] theorem hw_rdIntervalMask : Config.hw.rdIntervalMask = 0x7F := rfl
@[simp] theorem hw_srcTps3Supported : Config.hw.srcTps3Supported = true := rfl
@[simp] theorem hw_srcTps4Supported : Config.hw.srcTps4Supported = true := rfl

end Sys2Proof
end

