-- ==== Sys2Proof/Laws/State.lean ====
section
/-! SUPPORT. One lemma per field per update of the state, true by rfl, so that no later proof unfolds a
record update. -/

namespace Sys2Proof.Machine

open Sys2Proof

variable (s : State)

/-! ### setPhase -/

@[simp] theorem setPhase_st (p : Phase) : (setPhase p s).st = s.st := rfl
@[simp] theorem setPhase_cmd (p : Phase) : (setPhase p s).cmd = s.cmd := rfl
@[simp] theorem setPhase_ses (p : Phase) : (setPhase p s).ses = { s.ses with phase := p } := rfl
@[simp] theorem setPhase_lanes (p : Phase) : (setPhase p s).lanes = s.lanes := rfl
@[simp] theorem setPhase_res (p : Phase) : (setPhase p s).res = s.res := rfl
@[simp] theorem setPhase_failCode (p : Phase) : (setPhase p s).failCode = s.failCode := rfl
@[simp] theorem setPhase_auxTry (p : Phase) : (setPhase p s).auxTry = s.auxTry := rfl
@[simp] theorem setPhase_out (p : Phase) : (setPhase p s).out = s.out := rfl
@[simp] theorem setPhase_env (p : Phase) : (setPhase p s).env = s.env := rfl
@[simp] theorem setPhase_held (p : Phase) : (setPhase p s).held = s.held := rfl
@[simp] theorem setPhase_tick (p : Phase) : (setPhase p s).tick = s.tick := rfl
@[simp] theorem setPhase_trace (p : Phase) : (setPhase p s).trace = s.trace := rfl

/-! ### goTo -/

@[simp] theorem goTo_st (x : Fsm) : (goTo x s).st = x := rfl
@[simp] theorem goTo_cmd (x : Fsm) : (goTo x s).cmd = s.cmd := rfl
@[simp] theorem goTo_ses (x : Fsm) : (goTo x s).ses = s.ses := rfl
@[simp] theorem goTo_lanes (x : Fsm) : (goTo x s).lanes = s.lanes := rfl
@[simp] theorem goTo_res (x : Fsm) : (goTo x s).res = s.res := rfl
@[simp] theorem goTo_failCode (x : Fsm) : (goTo x s).failCode = s.failCode := rfl
@[simp] theorem goTo_auxTry (x : Fsm) : (goTo x s).auxTry = s.auxTry := rfl
@[simp] theorem goTo_out (x : Fsm) : (goTo x s).out = s.out := rfl
@[simp] theorem goTo_env (x : Fsm) : (goTo x s).env = s.env := rfl
@[simp] theorem goTo_held (x : Fsm) : (goTo x s).held = s.held := rfl
@[simp] theorem goTo_tick (x : Fsm) : (goTo x s).tick = s.tick := rfl
@[simp] theorem goTo_trace (x : Fsm) : (goTo x s).trace = s.trace := rfl

/-! ### emit -/

@[simp] theorem emit_st (e : Event) : (emit e s).st = s.st := rfl
@[simp] theorem emit_cmd (e : Event) : (emit e s).cmd = s.cmd := rfl
@[simp] theorem emit_ses (e : Event) : (emit e s).ses = s.ses := rfl
@[simp] theorem emit_lanes (e : Event) : (emit e s).lanes = s.lanes := rfl
@[simp] theorem emit_res (e : Event) : (emit e s).res = s.res := rfl
@[simp] theorem emit_failCode (e : Event) : (emit e s).failCode = s.failCode := rfl
@[simp] theorem emit_auxTry (e : Event) : (emit e s).auxTry = s.auxTry := rfl
@[simp] theorem emit_out (e : Event) : (emit e s).out = s.out := rfl
@[simp] theorem emit_env (e : Event) : (emit e s).env = s.env := rfl
@[simp] theorem emit_held (e : Event) : (emit e s).held = s.held := rfl
@[simp] theorem emit_tick (e : Event) : (emit e s).tick = s.tick := rfl
@[simp] theorem emit_trace (e : Event) : (emit e s).trace = s.trace ++ [e] := rfl

/-! ### laneReset -/

@[simp] theorem laneReset_st : (laneReset s).st = s.st := rfl
@[simp] theorem laneReset_cmd : (laneReset s).cmd = s.cmd := rfl
@[simp] theorem laneReset_ses : (laneReset s).ses = s.ses := rfl
@[simp] theorem laneReset_lanes : (laneReset s).lanes = Lanes.replicate Lane.reset := rfl
@[simp] theorem laneReset_res : (laneReset s).res = s.res := rfl
@[simp] theorem laneReset_failCode : (laneReset s).failCode = s.failCode := rfl
@[simp] theorem laneReset_auxTry : (laneReset s).auxTry = s.auxTry := rfl
@[simp] theorem laneReset_out : (laneReset s).out = s.out := rfl
@[simp] theorem laneReset_env : (laneReset s).env = s.env := rfl
@[simp] theorem laneReset_held : (laneReset s).held = s.held := rfl
@[simp] theorem laneReset_tick : (laneReset s).tick = s.tick := rfl
@[simp] theorem laneReset_trace : (laneReset s).trace = s.trace := rfl

/-! ### sessionInit -/

@[simp] theorem sessionInit_st : (sessionInit s).st = s.st := rfl
@[simp] theorem sessionInit_cmd : (sessionInit s).cmd = s.cmd := rfl
@[simp] theorem sessionInit_ses : (sessionInit s).ses = Session.reset := rfl
@[simp] theorem sessionInit_lanes : (sessionInit s).lanes = Lanes.replicate Lane.reset := rfl
@[simp] theorem sessionInit_res : (sessionInit s).res = s.res := rfl
@[simp] theorem sessionInit_failCode : (sessionInit s).failCode = s.failCode := rfl
@[simp] theorem sessionInit_auxTry : (sessionInit s).auxTry = s.auxTry := rfl
@[simp] theorem sessionInit_out : (sessionInit s).out = s.out := rfl
@[simp] theorem sessionInit_env : (sessionInit s).env = s.env := rfl
@[simp] theorem sessionInit_held : (sessionInit s).held = s.held := rfl
@[simp] theorem sessionInit_tick : (sessionInit s).tick = s.tick := rfl
@[simp] theorem sessionInit_trace : (sessionInit s).trace = s.trace := rfl

/-! ### completeWith -/

@[simp] theorem completeWith_st (r : ResultRegs) : (completeWith r s).st = .idle := rfl
@[simp] theorem completeWith_cmd (r : ResultRegs) : (completeWith r s).cmd = s.cmd := rfl
@[simp] theorem completeWith_ses (r : ResultRegs) : (completeWith r s).ses = s.ses := rfl
@[simp] theorem completeWith_lanes (r : ResultRegs) : (completeWith r s).lanes = s.lanes := rfl
@[simp] theorem completeWith_res (r : ResultRegs) : (completeWith r s).res = r := rfl
@[simp] theorem completeWith_failCode (r : ResultRegs) : (completeWith r s).failCode = s.failCode := rfl
@[simp] theorem completeWith_auxTry (r : ResultRegs) : (completeWith r s).auxTry = s.auxTry := rfl
@[simp] theorem completeWith_out (r : ResultRegs) : (completeWith r s).out = { s.out with done := true } := rfl
@[simp] theorem completeWith_env (r : ResultRegs) : (completeWith r s).env = s.env := rfl
@[simp] theorem completeWith_held (r : ResultRegs) : (completeWith r s).held = s.held := rfl
@[simp] theorem completeWith_tick (r : ResultRegs) : (completeWith r s).tick = s.tick := rfl
@[simp] theorem completeWith_trace (r : ResultRegs) : (completeWith r s).trace = s.trace ++ [.done r] := rfl

/-! ### enterFailed -/

@[simp] theorem enterFailed_st (c : FailCode) : (enterFailed c s).st = .failed := rfl
@[simp] theorem enterFailed_cmd (c : FailCode) : (enterFailed c s).cmd = s.cmd := rfl
@[simp] theorem enterFailed_ses (c : FailCode) : (enterFailed c s).ses = s.ses := rfl
@[simp] theorem enterFailed_lanes (c : FailCode) : (enterFailed c s).lanes = s.lanes := rfl
@[simp] theorem enterFailed_res (c : FailCode) : (enterFailed c s).res = s.res := rfl
@[simp] theorem enterFailed_failCode (c : FailCode) : (enterFailed c s).failCode = c := rfl
@[simp] theorem enterFailed_auxTry (c : FailCode) : (enterFailed c s).auxTry = s.auxTry := rfl
@[simp] theorem enterFailed_out (c : FailCode) : (enterFailed c s).out = s.out := rfl
@[simp] theorem enterFailed_env (c : FailCode) : (enterFailed c s).env = s.env := rfl
@[simp] theorem enterFailed_held (c : FailCode) : (enterFailed c s).held = s.held := rfl
@[simp] theorem enterFailed_tick (c : FailCode) : (enterFailed c s).tick = s.tick := rfl
@[simp] theorem enterFailed_trace (c : FailCode) : (enterFailed c s).trace = s.trace := rfl

/-! ### endAction -/

@[simp] theorem endAction_st : (endAction s).st = s.st := rfl
@[simp] theorem endAction_cmd : (endAction s).cmd = s.cmd := rfl
@[simp] theorem endAction_ses : (endAction s).ses = s.ses := rfl
@[simp] theorem endAction_lanes : (endAction s).lanes = s.lanes := rfl
@[simp] theorem endAction_res : (endAction s).res = s.res := rfl
@[simp] theorem endAction_failCode : (endAction s).failCode = s.failCode := rfl
@[simp] theorem endAction_auxTry : (endAction s).auxTry = s.auxTry := rfl
@[simp] theorem endAction_out : (endAction s).out = s.out := rfl
@[simp] theorem endAction_env : (endAction s).env = s.env := rfl
@[simp] theorem endAction_held : (endAction s).held = Held.empty := rfl
@[simp] theorem endAction_tick : (endAction s).tick = s.tick := rfl
@[simp] theorem endAction_trace : (endAction s).trace = s.trace := rfl

/-! ### dropRequests -/

@[simp] theorem dropRequests_st : (dropRequests s).st = s.st := rfl
@[simp] theorem dropRequests_cmd : (dropRequests s).cmd = s.cmd := rfl
@[simp] theorem dropRequests_ses : (dropRequests s).ses = s.ses := rfl
@[simp] theorem dropRequests_lanes : (dropRequests s).lanes = s.lanes := rfl
@[simp] theorem dropRequests_res : (dropRequests s).res = s.res := rfl
@[simp] theorem dropRequests_failCode : (dropRequests s).failCode = s.failCode := rfl
@[simp] theorem dropRequests_auxTry : (dropRequests s).auxTry = s.auxTry := rfl
@[simp] theorem dropRequests_out : (dropRequests s).out = ⟨s.out.done, none, none, none⟩ := rfl
@[simp] theorem dropRequests_env : (dropRequests s).env = s.env := rfl
@[simp] theorem dropRequests_held : (dropRequests s).held = s.held := rfl
@[simp] theorem dropRequests_tick : (dropRequests s).tick = s.tick := rfl
@[simp] theorem dropRequests_trace : (dropRequests s).trace = s.trace := rfl

/-! ### latchCaps -/

@[simp] theorem latchCaps_st (c : Caps) : (latchCaps c s).st = s.st := rfl
@[simp] theorem latchCaps_cmd (c : Caps) : (latchCaps c s).cmd = s.cmd := rfl
@[simp] theorem latchCaps_ses (c : Caps) : (latchCaps c s).ses = { s.ses with capTps3 := c.tps3, capTps4 := c.tps4, capEfc := c.efc, rdInterval := c.rdInterval } := rfl
@[simp] theorem latchCaps_lanes (c : Caps) : (latchCaps c s).lanes = s.lanes := rfl
@[simp] theorem latchCaps_res (c : Caps) : (latchCaps c s).res = s.res := rfl
@[simp] theorem latchCaps_failCode (c : Caps) : (latchCaps c s).failCode = s.failCode := rfl
@[simp] theorem latchCaps_auxTry (c : Caps) : (latchCaps c s).auxTry = s.auxTry := rfl
@[simp] theorem latchCaps_out (c : Caps) : (latchCaps c s).out = s.out := rfl
@[simp] theorem latchCaps_env (c : Caps) : (latchCaps c s).env = s.env := rfl
@[simp] theorem latchCaps_held (c : Caps) : (latchCaps c s).held = s.held := rfl
@[simp] theorem latchCaps_tick (c : Caps) : (latchCaps c s).tick = s.tick := rfl
@[simp] theorem latchCaps_trace (c : Caps) : (latchCaps c s).trace = s.trace := rfl

/-! ### latchStart -/

@[simp] theorem latchStart_st (c : Caps) : (latchStart c s).st = s.st := rfl
@[simp] theorem latchStart_cmd (c : Caps) : (latchStart c s).cmd = s.cmd := rfl
@[simp] theorem latchStart_ses (c : Caps) : (latchStart c s).ses = { s.ses with curRate := startRate s.cmd.rate c.maxRate, curLanes := startLanes s.cmd.lanes c.maxLanes } := rfl
@[simp] theorem latchStart_lanes (c : Caps) : (latchStart c s).lanes = s.lanes := rfl
@[simp] theorem latchStart_res (c : Caps) : (latchStart c s).res = s.res := rfl
@[simp] theorem latchStart_failCode (c : Caps) : (latchStart c s).failCode = s.failCode := rfl
@[simp] theorem latchStart_auxTry (c : Caps) : (latchStart c s).auxTry = s.auxTry := rfl
@[simp] theorem latchStart_out (c : Caps) : (latchStart c s).out = s.out := rfl
@[simp] theorem latchStart_env (c : Caps) : (latchStart c s).env = s.env := rfl
@[simp] theorem latchStart_held (c : Caps) : (latchStart c s).held = s.held := rfl
@[simp] theorem latchStart_tick (c : Caps) : (latchStart c s).tick = s.tick := rfl
@[simp] theorem latchStart_trace (c : Caps) : (latchStart c s).trace = s.trace := rfl

/-! ### stepDown -/

@[simp] theorem stepDown_st (r : RateIdx) : (stepDown r s).st = .phySetup := rfl
@[simp] theorem stepDown_cmd (r : RateIdx) : (stepDown r s).cmd = s.cmd := rfl
@[simp] theorem stepDown_ses (r : RateIdx) : (stepDown r s).ses = { s.ses with curRate := r, crStallCnt := 0, eqRetryCnt := 0, totalRetryCnt := 0 } := rfl
@[simp] theorem stepDown_lanes (r : RateIdx) : (stepDown r s).lanes = Lanes.replicate Lane.reset := rfl
@[simp] theorem stepDown_res (r : RateIdx) : (stepDown r s).res = s.res := rfl
@[simp] theorem stepDown_failCode (r : RateIdx) : (stepDown r s).failCode = s.failCode := rfl
@[simp] theorem stepDown_auxTry (r : RateIdx) : (stepDown r s).auxTry = s.auxTry := rfl
@[simp] theorem stepDown_out (r : RateIdx) : (stepDown r s).out = s.out := rfl
@[simp] theorem stepDown_env (r : RateIdx) : (stepDown r s).env = s.env := rfl
@[simp] theorem stepDown_held (r : RateIdx) : (stepDown r s).held = s.held := rfl
@[simp] theorem stepDown_tick (r : RateIdx) : (stepDown r s).tick = s.tick := rfl
@[simp] theorem stepDown_trace (r : RateIdx) : (stepDown r s).trace = s.trace := rfl

/-! ### adopt -/

@[simp] theorem adopt_st (P : Params) (q : AdjustReq) : (adopt P q s).st = s.st := rfl
@[simp] theorem adopt_cmd (P : Params) (q : AdjustReq) : (adopt P q s).cmd = s.cmd := rfl
@[simp] theorem adopt_ses (P : Params) (q : AdjustReq) : (adopt P q s).ses = s.ses := rfl
@[simp] theorem adopt_lanes (P : Params) (q : AdjustReq) : (adopt P q s).lanes = adoptLanes P q s.lanes := rfl
@[simp] theorem adopt_res (P : Params) (q : AdjustReq) : (adopt P q s).res = s.res := rfl
@[simp] theorem adopt_failCode (P : Params) (q : AdjustReq) : (adopt P q s).failCode = s.failCode := rfl
@[simp] theorem adopt_auxTry (P : Params) (q : AdjustReq) : (adopt P q s).auxTry = s.auxTry := rfl
@[simp] theorem adopt_out (P : Params) (q : AdjustReq) : (adopt P q s).out = s.out := rfl
@[simp] theorem adopt_env (P : Params) (q : AdjustReq) : (adopt P q s).env = s.env := rfl
@[simp] theorem adopt_held (P : Params) (q : AdjustReq) : (adopt P q s).held = s.held := rfl
@[simp] theorem adopt_tick (P : Params) (q : AdjustReq) : (adopt P q s).tick = s.tick := rfl
@[simp] theorem adopt_trace (P : Params) (q : AdjustReq) : (adopt P q s).trace = s.trace := rfl

/-! ### eqRetry -/

@[simp] theorem eqRetry_st (P : Params) (q : AdjustReq) : (eqRetry P q s).st = .equalization := rfl
@[simp] theorem eqRetry_cmd (P : Params) (q : AdjustReq) : (eqRetry P q s).cmd = s.cmd := rfl
@[simp] theorem eqRetry_ses (P : Params) (q : AdjustReq) : (eqRetry P q s).ses = { s.ses with eqRetryCnt := s.ses.eqRetryCnt + 1 } := rfl
@[simp] theorem eqRetry_lanes (P : Params) (q : AdjustReq) : (eqRetry P q s).lanes = adoptLanes P q s.lanes := rfl
@[simp] theorem eqRetry_res (P : Params) (q : AdjustReq) : (eqRetry P q s).res = s.res := rfl
@[simp] theorem eqRetry_failCode (P : Params) (q : AdjustReq) : (eqRetry P q s).failCode = s.failCode := rfl
@[simp] theorem eqRetry_auxTry (P : Params) (q : AdjustReq) : (eqRetry P q s).auxTry = s.auxTry := rfl
@[simp] theorem eqRetry_out (P : Params) (q : AdjustReq) : (eqRetry P q s).out = s.out := rfl
@[simp] theorem eqRetry_env (P : Params) (q : AdjustReq) : (eqRetry P q s).env = s.env := rfl
@[simp] theorem eqRetry_held (P : Params) (q : AdjustReq) : (eqRetry P q s).held = s.held := rfl
@[simp] theorem eqRetry_tick (P : Params) (q : AdjustReq) : (eqRetry P q s).tick = s.tick := rfl
@[simp] theorem eqRetry_trace (P : Params) (q : AdjustReq) : (eqRetry P q s).trace = s.trace := rfl

/-! ### afterFetch -/

@[simp] theorem afterFetch_st : (afterFetch s).st = s.st := rfl
@[simp] theorem afterFetch_cmd : (afterFetch s).cmd = s.cmd := rfl
@[simp] theorem afterFetch_ses : (afterFetch s).ses = s.ses := rfl
@[simp] theorem afterFetch_lanes : (afterFetch s).lanes = s.lanes := rfl
@[simp] theorem afterFetch_res : (afterFetch s).res = s.res := rfl
@[simp] theorem afterFetch_failCode : (afterFetch s).failCode = s.failCode := rfl
@[simp] theorem afterFetch_auxTry : (afterFetch s).auxTry = s.auxTry := rfl
@[simp] theorem afterFetch_out : (afterFetch s).out = { s.out with done := false } := rfl
@[simp] theorem afterFetch_env : (afterFetch s).env = { s.env with cmds := if s.st = .idle then s.env.cmds.tail else s.env.cmds } := rfl
@[simp] theorem afterFetch_held : (afterFetch s).held = s.held := rfl
@[simp] theorem afterFetch_tick : (afterFetch s).tick = s.tick := rfl
@[simp] theorem afterFetch_trace : (afterFetch s).trace = s.trace := rfl

/-! ### latchCommand -/

@[simp] theorem latchCommand_st (w : BitVec 8) : (latchCommand w s).st = s.st := rfl
@[simp] theorem latchCommand_cmd (w : BitVec 8) : (latchCommand w s).cmd = ⟨w.extractLsb' 0 2, w.extractLsb' 2 2, w.extractLsb' 4 3⟩ := rfl
@[simp] theorem latchCommand_ses (w : BitVec 8) : (latchCommand w s).ses = s.ses := rfl
@[simp] theorem latchCommand_lanes (w : BitVec 8) : (latchCommand w s).lanes = s.lanes := rfl
@[simp] theorem latchCommand_res (w : BitVec 8) : (latchCommand w s).res = s.res := rfl
@[simp] theorem latchCommand_failCode (w : BitVec 8) : (latchCommand w s).failCode = s.failCode := rfl
@[simp] theorem latchCommand_auxTry (w : BitVec 8) : (latchCommand w s).auxTry = s.auxTry := rfl
@[simp] theorem latchCommand_out (w : BitVec 8) : (latchCommand w s).out = s.out := rfl
@[simp] theorem latchCommand_env (w : BitVec 8) : (latchCommand w s).env = s.env := rfl
@[simp] theorem latchCommand_held (w : BitVec 8) : (latchCommand w s).held = s.held := rfl
@[simp] theorem latchCommand_tick (w : BitVec 8) : (latchCommand w s).tick = s.tick := rfl
@[simp] theorem latchCommand_trace (w : BitVec 8) : (latchCommand w s).trace = s.trace ++ [.cmd w] := rfl

/-! ### blockReset -/

@[simp] theorem blockReset_st : (blockReset s).st = .idle := rfl
@[simp] theorem blockReset_cmd : (blockReset s).cmd = ⟨0, 0, 0⟩ := rfl
@[simp] theorem blockReset_ses : (blockReset s).ses = Session.reset := rfl
@[simp] theorem blockReset_lanes : (blockReset s).lanes = Lanes.replicate Lane.reset := rfl
@[simp] theorem blockReset_res : (blockReset s).res = ResultRegs.reset := rfl
@[simp] theorem blockReset_auxTry : (blockReset s).auxTry = 0 := rfl
@[simp] theorem blockReset_out : (blockReset s).out = Outputs.reset := rfl
@[simp] theorem blockReset_env : (blockReset s).env = s.env := rfl
@[simp] theorem blockReset_held : (blockReset s).held = Held.empty := rfl
@[simp] theorem blockReset_trace : (blockReset s).trace = s.trace := rfl

end Sys2Proof.Machine
end

