-- ==== Sys2Proof/Laws/Ops.lean ====
section
/-! SUPPORT. One lemma for each shared operation that says once everything it can do: the ports, the
DPCD primitives, taking an exception, and running an action. -/

namespace Sys2Proof.Machine

open Sys2Proof

/-! ### Lanes and the ladder -/

/-- A test of the active lanes, lane by lane (R223). -/
theorem allActive_eq (n : Nat) (p : LaneIdx → Bool) :
    allActive n p = ((!decide (0 < n) || p 0) && (!decide (1 < n) || p 1) &&
      (!decide (2 < n) || p 2) && (!decide (3 < n) || p 3)) := by
  simp [allActive, List.finRange_succ, Bool.and_assoc]

/-- A test of the active lanes holds exactly if it holds of every lane below `n` (R223, R237, R238). -/
theorem allActive_iff (n : Nat) (p : LaneIdx → Bool) :
    allActive n p = true ↔ ∀ i : LaneIdx, i.val < n → p i = true := by
  simp only [allActive, List.all_eq_true, List.mem_finRange, true_implies, Bool.or_eq_true,
    Bool.not_eq_true', decide_eq_false_iff_not]
  exact forall_congr' fun i => ⟨fun h hi => h.resolve_left (not_not_intro hi), Decidable.not_or_of_imp⟩

/-- The ladder goes down one index at a time and ends at 0 (R186). -/
theorem nextRate_hw (r : RateIdx) : nextRate Config.hw r = if r = 0 then none else some (r - 1) := by
  revert r; decide

/-! ### Input and output only -/

/-- From `s` to `t` nothing but inputs, requests, `aux_try` and events changed, and every new event
satisfies `Q`. -/
structure IoOnly (Q : Event → Prop) (s t : State) : Prop where
  st : t.st = s.st
  cmd : t.cmd = s.cmd
  ses : t.ses = s.ses
  lanes : t.lanes = s.lanes
  res : t.res = s.res
  failCode : t.failCode = s.failCode
  done : t.out.done = s.out.done
  rstN : t.env.rstN = s.env.rstN
  cmds : t.env.cmds = s.env.cmds
  events : ∃ es, t.trace = s.trace ++ es ∧ ∀ e ∈ es, Q e

theorem IoOnly.refl (Q : Event → Prop) (s : State) : IoOnly Q s s :=
  ⟨rfl, rfl, rfl, rfl, rfl, rfl, rfl, rfl, rfl, [], by simp, by simp⟩

theorem IoOnly.trans {Q : Event → Prop} {s t u : State} (h : IoOnly Q s t) (k : IoOnly Q t u) :
    IoOnly Q s u := by
  obtain ⟨es, hes, hq⟩ := h.events
  obtain ⟨fs, hfs, kq⟩ := k.events
  refine ⟨k.st.trans h.st, k.cmd.trans h.cmd, k.ses.trans h.ses, k.lanes.trans h.lanes,
    k.res.trans h.res, k.failCode.trans h.failCode, k.done.trans h.done, k.rstN.trans h.rstN,
    k.cmds.trans h.cmds, es ++ fs, by rw [hfs, hes, List.append_assoc], ?_⟩
  intro e he
  rcases List.mem_append.mp he with h1 | h1
  · exact hq e h1
  · exact kq e h1

theorem IoOnly.mono {Q R : Event → Prop} {s t : State} (h : IoOnly Q s t) (hQR : ∀ e, Q e → R e) :
    IoOnly R s t := by
  obtain ⟨es, hes, hq⟩ := h.events
  exact ⟨h.st, h.cmd, h.ses, h.lanes, h.res, h.failCode, h.done, h.rstN, h.cmds, es, hes,
    fun e he => hQR e (hq e he)⟩

/-- No request is driven. -/
def NoRequest (s : State) : Prop :=
  s.out.auxReq = none ∧ s.out.phyReq = none ∧ s.out.waitReq = none

/-- One request is driven, and its answer has not come. -/
def Unanswered (s : State) : Prop :=
  (s.out.auxReq.isSome = true ∧ s.out.phyReq = none ∧ s.out.waitReq = none ∧ s.env.auxRsps = []) ∨
  (s.out.auxReq = none ∧ s.out.phyReq.isSome = true ∧ s.out.waitReq = none ∧ s.env.phyAcks = 0) ∨
  (s.out.auxReq = none ∧ s.out.phyReq = none ∧ s.out.waitReq.isSome = true ∧ s.env.waitDones = 0)

/-- `aux_try` is in its range (R43). -/
def TryFits (s : State) : Prop := s.auxTry.toNat ≤ 4

/-- `aux_try` is still in its range if it was. -/
def KeepsTry (s t : State) : Prop := TryFits s → TryFits t

/-- What a piece of an action that started in `s` can end in: it only did input and output whose events
satisfy `Q`; if it raised, the exception satisfies `E`; and it blocks exactly on an answer that has not
come. -/
def EndsIn {α : Type} (Q : Event → Prop) (E : Exn → Prop) (s : State) :
    EStateM.Result Stop Run α → Prop
  | .ok _ r => IoOnly Q s r.s ∧ NoRequest r.s ∧ KeepsTry s r.s
  | .error (.raised e) r => IoOnly Q s r.s ∧ NoRequest r.s ∧ KeepsTry s r.s ∧ E e
  | .error .blocked r => IoOnly Q s r.s ∧ Unanswered r.s ∧ KeepsTry s r.s

/-- A piece of an action that does nothing but input and output, and may raise `E`. -/
def DoesIo {α : Type} (Q : Event → Prop) (E : Exn → Prop) (a : Act α) : Prop :=
  ∀ r, NoRequest r.s → EndsIn Q E r.s (a r)

/-! ### Sequencing -/

theorem act_bind {α β : Type} (a : Act α) (f : α → Act β) (r : Run) :
    (a >>= f) r = match a r with
      | .ok x r' => f x r'
      | .error e r' => .error e r' := by
  show EStateM.bind a f r = _
  unfold EStateM.bind
  cases a r <;> rfl

@[simp] theorem act_pure {α : Type} (x : α) (r : Run) : (pure x : Act α) r = .ok x r := rfl
@[simp] theorem act_raise {α : Type} (e : Exn) (r : Run) :
    (raise e : Act α) r = .error (.raised e) r := rfl
@[simp] theorem act_getState (r : Run) : getState r = .ok r.s r := rfl
@[simp] theorem act_modifyState (f : State → State) (r : Run) :
    modifyState f r = .ok () { r with s := f r.s } := rfl
@[simp] theorem act_ite {α : Type} (c : Prop) [Decidable c] (a b : Act α) (r : Run) :
    (if c then a else b) r = if c then a r else b r := by split <;> rfl

theorem EndsIn.trans {α : Type} {Q : Event → Prop} {E : Exn → Prop} {s t : State}
    {x : EStateM.Result Stop Run α} (h : IoOnly Q s t) (ht : KeepsTry s t) (k : EndsIn Q E t x) :
    EndsIn Q E s x := by
  rcases x with ⟨a, r⟩ | ⟨e | _, r⟩
  · exact ⟨h.trans k.1, k.2.1, fun hs => k.2.2 (ht hs)⟩
  · exact ⟨h.trans k.1, k.2.1, fun hs => k.2.2.1 (ht hs), k.2.2.2⟩
  · exact ⟨h.trans k.1, k.2.1, fun hs => k.2.2 (ht hs)⟩

theorem DoesIo.pure {α : Type} (Q : Event → Prop) (E : Exn → Prop) (x : α) :
    DoesIo Q E (pure x : Act α) :=
  fun r h => ⟨IoOnly.refl Q r.s, h, fun k => k⟩

theorem DoesIo.raise {α : Type} (Q : Event → Prop) (E : Exn → Prop) (e : Exn) (he : E e) :
    DoesIo Q E (raise e : Act α) :=
  fun r h => ⟨IoOnly.refl Q r.s, h, fun k => k, he⟩

theorem DoesIo.bind {α β : Type} {Q : Event → Prop} {E : Exn → Prop} {a : Act α} {f : α → Act β}
    (ha : DoesIo Q E a) (hf : ∀ x, DoesIo Q E (f x)) : DoesIo Q E (a >>= f) := by
  intro r h
  have hr := ha r h
  rw [act_bind]
  rcases ha' : a r with ⟨x, r'⟩ | ⟨e | _, r'⟩ <;> rw [ha'] at hr
  · exact EndsIn.trans hr.1 hr.2.2 (hf x r' hr.2.1)
  · exact hr
  · exact hr

theorem DoesIo.getState {Q : Event → Prop} {E : Exn → Prop} : DoesIo Q E getState :=
  fun r h => ⟨IoOnly.refl Q r.s, h, fun k => k⟩

theorem DoesIo.ite {α : Type} {Q : Event → Prop} {E : Exn → Prop} (c : Prop) [Decidable c] {a b : Act α}
    (ha : DoesIo Q E a) (hb : DoesIo Q E b) : DoesIo Q E (if c then a else b) := by
  split
  · exact ha
  · exact hb

theorem DoesIo.mono {α : Type} {Q R : Event → Prop} {E F : Exn → Prop} {a : Act α} (h : DoesIo Q E a)
    (hQR : ∀ e, Q e → R e) (hEF : ∀ e, E e → F e) : DoesIo R F a := by
  intro r h1
  have hr := h r h1
  rcases ha : a r with ⟨x, r'⟩ | ⟨e | _, r'⟩ <;> rw [ha] at hr
  · exact ⟨hr.1.mono hQR, hr.2⟩
  · exact ⟨hr.1.mono hQR, hr.2.1, hr.2.2.1, hEF _ hr.2.2.2⟩
  · exact ⟨hr.1.mono hQR, hr.2⟩

/-! ### The ports -/

/-- No exception. -/
def NoExn (_ : Exn) : Prop := False

/-- An AUX attempt makes at most the event of its request and its answer. -/
theorem auxRequest_io (q : AuxReq) : DoesIo (fun e => ∃ a, e = q.event a) NoExn (auxRequest q) := by
  intro r h
  unfold auxRequest
  split
  · exact ⟨IoOnly.refl _ _, h, fun k => k⟩
  · split
    · rename_i h0
      exact ⟨⟨rfl, rfl, rfl, rfl, rfl, rfl, rfl, rfl, rfl, [], by simp, by simp⟩,
        Or.inl ⟨rfl, h.2.1, h.2.2, h0⟩, fun k => k⟩
    · rename_i a rest _
      exact ⟨⟨rfl, rfl, rfl, rfl, rfl, rfl, rfl, rfl, rfl, [q.event a], by simp, by simp⟩,
        ⟨rfl, h.2.1, h.2.2⟩, fun k => k⟩

/-- A PHY operation makes at most its event. -/
theorem phyOp_io (op : PhyOpc) (arg : BitVec 16) :
    DoesIo (· = .phy op arg) NoExn (phyOp op arg) := by
  intro r h
  unfold phyOp
  split
  · exact ⟨IoOnly.refl _ _, h, fun k => k⟩
  · split
    · rename_i h0
      exact ⟨⟨rfl, rfl, rfl, rfl, rfl, rfl, rfl, rfl, rfl, [], by simp, by simp⟩,
        Or.inr (Or.inl ⟨h.1, rfl, h.2.2, h0⟩), fun k => k⟩
    · exact ⟨⟨rfl, rfl, rfl, rfl, rfl, rfl, rfl, rfl, rfl, [.phy op arg], by simp, by simp⟩,
        ⟨h.1, rfl, h.2.2⟩, fun k => k⟩

/-- A wait makes at most its event. -/
theorem waitUs_io (us : BitVec 20) : DoesIo (· = .wait us) NoExn (waitUs us) := by
  intro r h
  unfold waitUs
  split
  · exact ⟨IoOnly.refl _ _, h, fun k => k⟩
  · split
    · rename_i h0
      exact ⟨⟨rfl, rfl, rfl, rfl, rfl, rfl, rfl, rfl, rfl, [], by simp, by simp⟩,
        Or.inr (Or.inr ⟨h.1, h.2.1, rfl, h0⟩), fun k => k⟩
    · exact ⟨⟨rfl, rfl, rfl, rfl, rfl, rfl, rfl, rfl, rfl, [.wait us], by simp, by simp⟩,
        ⟨h.1, h.2.1, rfl⟩, fun k => k⟩

theorem nextPhySample_io (s : State) : IoOnly (fun _ => False) s (nextPhySample s).2 ∧
    (nextPhySample s).2.out = s.out ∧ (nextPhySample s).2.auxTry = s.auxTry := by
  unfold nextPhySample
  split <;> exact ⟨⟨rfl, rfl, rfl, rfl, rfl, rfl, rfl, rfl, rfl, [], by simp, by simp⟩, rfl, rfl⟩

theorem nextUnplug_io (s : State) : IoOnly (fun _ => False) s (nextUnplug s).2 ∧
    (nextUnplug s).2.out = s.out ∧ (nextUnplug s).2.auxTry = s.auxTry := by
  unfold nextUnplug
  split <;> exact ⟨⟨rfl, rfl, rfl, rfl, rfl, rfl, rfl, rfl, rfl, [], by simp, by simp⟩, rfl, rfl⟩

/-- A PHY status sample makes at most the event of what it returns. -/
theorem phyStatus_io : DoesIo (fun e => ∃ p, e = .phyRd p) NoExn phyStatus := by
  intro r h
  unfold phyStatus
  split
  · exact ⟨IoOnly.refl _ _, h, fun k => k⟩
  · obtain ⟨h1, h2, h3⟩ := nextPhySample_io r.s
    refine ⟨(h1.mono (by simp)).trans ⟨rfl, rfl, rfl, rfl, rfl, rfl, rfl, rfl, rfl,
      [.phyRd (nextPhySample r.s).1], rfl, by simp⟩, ?_, ?_⟩
    · have h' : NoRequest (nextPhySample r.s).2 := by unfold NoRequest; rw [h2]; exact h
      exact h'
    · have k' : KeepsTry r.s (nextPhySample r.s).2 := by unfold KeepsTry TryFits; rw [h3]; exact fun k => k
      exact k'

/-- A poll makes at most the event of what it returns. -/
theorem pollUnplug_io : DoesIo (fun e => ∃ b, e = .poll b) NoExn pollUnplug := by
  intro r h
  unfold pollUnplug
  split
  · exact ⟨IoOnly.refl _ _, h, fun k => k⟩
  · obtain ⟨h1, h2, h3⟩ := nextUnplug_io r.s
    refine ⟨(h1.mono (by simp)).trans ⟨rfl, rfl, rfl, rfl, rfl, rfl, rfl, rfl, rfl,
      [.poll (nextUnplug r.s).1], rfl, by simp⟩, ?_, ?_⟩
    · have h' : NoRequest (nextUnplug r.s).2 := by unfold NoRequest; rw [h2]; exact h
      exact h'
    · have k' : KeepsTry r.s (nextUnplug r.s).2 := by unfold KeepsTry TryFits; rw [h3]; exact fun k => k
      exact k'

/-- A poll point raises `LinkUnplugged` or nothing (R268). -/
theorem pollPoint_io : DoesIo (fun e => ∃ b, e = .poll b) (· = .linkUnplugged) pollPoint := by
  unfold pollPoint
  refine (pollUnplug_io.mono (fun _ h => h) (fun _ h => h.elim)).bind fun b => ?_
  cases b
  · exact DoesIo.pure _ _ _
  · exact DoesIo.raise _ _ _ rfl

/-! ### The DPCD primitives -/

/-- The events of one AUX transaction: its attempts and its back-off waits (R66, R67). -/
def auxEvents (q : AuxReq) (e : Event) : Prop := (∃ a, e = q.event a) ∨ e = .wait 50000

/-- The retry loop, entered with `left` retries left, `aux_try` being the retries made. -/
theorem auxLoop_io (q : AuxReq) (left : Nat) :
    ∀ r, NoRequest r.s → r.s.auxTry.toNat + left = 4 →
      EndsIn (auxEvents q) (· = .auxFail q.addr) r.s (auxLoop Config.hw q left r) := by
  induction left with
  | zero =>
    intro r h _
    have h1 := ((auxRequest_io q).mono (R := auxEvents q) (F := (· = .auxFail q.addr))
      (fun e h => Or.inl h) (fun _ h => h.elim)) r h
    rw [auxLoop, act_bind]
    rcases hr : auxRequest q r with ⟨a, r1⟩ | ⟨e | _, r1⟩ <;> rw [hr] at h1
    · simp only [act_ite, act_raise, act_pure]
      split
      · exact ⟨h1.1, h1.2.1, h1.2.2, rfl⟩
      · exact h1
    · exact h1
    · exact h1
  | succ n ih =>
    intro r h k
    have h1 := ((auxRequest_io q).mono (R := auxEvents q) (F := (· = .auxFail q.addr))
      (fun e h => Or.inl h) (fun _ h => h.elim)) r h
    rw [auxLoop, act_bind]
    rcases hr : auxRequest q r with ⟨a, r1⟩ | ⟨e | _, r1⟩
    · rw [hr] at h1
      have htry : r1.s.auxTry = r.s.auxTry := by
        unfold auxRequest at hr
        split at hr
        · cases hr; rfl
        · split at hr <;> cases hr; rfl
      simp only [act_ite, act_pure]
      split
      · rw [act_bind]
        simp only [act_modifyState]
        have hle : (r1.s.auxTry + 1).toNat + n = 4 := by
          rw [BitVec.toNat_add, htry]
          simp
          omega
        have h2 := ((waitUs_io (BitVec.ofNat 20 Config.hw.auxBackoffUs)).mono (R := auxEvents q)
          (F := (· = .auxFail q.addr)) (fun e h => Or.inr h) (fun _ h => h.elim))
          { r1 with s := { r1.s with auxTry := r1.s.auxTry + 1 } } h1.2.1
        have h0 : IoOnly (auxEvents q) r.s { r1.s with auxTry := r1.s.auxTry + 1 } :=
          h1.1.trans ⟨rfl, rfl, rfl, rfl, rfl, rfl, rfl, rfl, rfl, [], by simp, by simp⟩
        have h0' : KeepsTry r.s { r1.s with auxTry := r1.s.auxTry + 1 } := fun _ => by
          simp only [TryFits]; omega
        rw [act_bind]
        rcases hw : waitUs (BitVec.ofNat 20 Config.hw.auxBackoffUs)
          { r1 with s := { r1.s with auxTry := r1.s.auxTry + 1 } } with ⟨u, r2⟩ | ⟨e | _, r2⟩
        · rw [hw] at h2
          have htry2 : r2.s.auxTry = r1.s.auxTry + 1 := by
            unfold waitUs at hw
            split at hw
            · cases hw; rfl
            · split at hw <;> cases hw; rfl
          exact EndsIn.trans (h0.trans h2.1) (fun hs => h2.2.2 (h0' hs))
            (ih r2 h2.2.1 (by rw [htry2]; exact hle))
        · rw [hw] at h2; exact EndsIn.trans h0 h0' h2
        · rw [hw] at h2; exact EndsIn.trans h0 h0' h2
      · exact h1
    · rw [hr] at h1; exact h1
    · rw [hr] at h1; exact h1

theorem auxTransaction_io (q : AuxReq) :
    DoesIo (auxEvents q) (· = .auxFail q.addr) (auxTransaction Config.hw q) := by
  intro r h
  rw [auxTransaction, act_bind]
  simp only [act_modifyState]
  exact EndsIn.trans (t := { r.s with auxTry := 0 })
    ⟨rfl, rfl, rfl, rfl, rfl, rfl, rfl, rfl, rfl, [], by simp, by simp⟩
    (fun _ => by simp [TryFits])
    (auxLoop_io q _ ⟨{ r.s with auxTry := 0 }, r.replay⟩ h rfl)

/-- `MemRead`: attempts at its address and length, back-off waits, and `AuxFail` (R66). -/
theorem memRead_io (addr : Addr) (n : Nat) :
    DoesIo (auxEvents (.read addr n)) (· = .auxFail addr) (memRead Config.hw addr n) :=
  (auxTransaction_io (.read addr n)).bind fun _ => DoesIo.pure _ _ _

/-- `MemWrite`: attempts with its address and bytes, back-off waits, and `AuxFail` (R67). -/
theorem memWrite_io (addr : Addr) (v : List Byte) :
    DoesIo (auxEvents (.write addr v)) (· = .auxFail addr) (memWrite Config.hw addr v) :=
  (auxTransaction_io (.write addr v)).bind fun _ => DoesIo.pure _ _ _

/-- A read returns exactly the bytes it asked for (R66). -/
theorem memRead_length {P : Params} {addr : Addr} {n : Nat} {r r' : Run} {b : List Byte}
    (h : memRead P addr n r = .ok b r') : b.length = n := by
  unfold memRead at h
  rw [act_bind] at h
  cases hr : auxTransaction P (.read addr n) r with
  | ok a r1 =>
    rw [hr] at h
    simp only [act_pure, EStateM.Result.ok.injEq] at h
    simp [← h.1, dataBytes]
  | error e r1 => rw [hr] at h; simp at h

/-! ### Exceptions and the run of an action -/

/-- What taking an exception can do (R260, R271): the registers of the session, the lane file and the
inputs stay but in `BadCommand`, and `st` becomes the state of R260's table. -/
theorem takeException_cases (e : Exn) (s : State) :
    (e = .linkUnplugged ∧ takeException e s = goTo .linkUnplugged s) ∨
    (e = .trainingExhausted ∧ takeException e s = enterFailed .trainingExhausted s) ∨
    (e = .capabilityMismatch ∧ takeException e s = enterFailed .capabilityMismatch s) ∨
    (∃ a, e = .auxFail a ∧ s.st = .healthCheck ∧ takeException e s = doneCmd .auxTransportError s) ∨
    (∃ a, e = .auxFail a ∧ s.st ≠ .healthCheck ∧
      takeException e s = enterFailed .auxTransportError s) ∨
    (e = .badCommand ∧ takeException e s =
      doneCmd .badCommand { s with ses.phase := .none, ses.curRate := 0, ses.curLanes := 0 }) := by
  cases e with
  | linkUnplugged => exact Or.inl ⟨rfl, rfl⟩
  | trainingExhausted => exact Or.inr (Or.inl ⟨rfl, rfl⟩)
  | capabilityMismatch => exact Or.inr (Or.inr (Or.inl ⟨rfl, rfl⟩))
  | auxFail a =>
    by_cases h : s.st = .healthCheck
    · exact Or.inr (Or.inr (Or.inr (Or.inl ⟨a, rfl, h, by simp [takeException, h]⟩)))
    · exact Or.inr (Or.inr (Or.inr (Or.inr (Or.inl ⟨a, rfl, h, by simp [takeException, h]⟩))))
  | badCommand => exact Or.inr (Or.inr (Or.inr (Or.inr (Or.inr ⟨rfl, rfl⟩))))

/-- Running an action always answers a next state: the end of the action, the state an exception leads
to, or the state that waits for an answer (R260, R299). -/
theorem runAction_cases (a : Act Unit) (s : State) :
    (∃ r, a ⟨dropRequests s, s.held⟩ = .ok () r ∧ runAction a s = .next (endAction r.s)) ∨
    (∃ e r, a ⟨dropRequests s, s.held⟩ = .error (.raised e) r ∧
      runAction a s = .next (endAction (takeException e r.s))) ∨
    (∃ r, a ⟨dropRequests s, s.held⟩ = .error .blocked r ∧ runAction a s = .next r.s) := by
  unfold runAction
  cases h : a ⟨dropRequests s, s.held⟩ with
  | ok u r => exact Or.inl ⟨r, rfl, rfl⟩
  | error e r =>
    cases e with
    | raised e => exact Or.inr (Or.inl ⟨e, r, rfl, rfl⟩)
    | blocked => exact Or.inr (Or.inr ⟨r, rfl, rfl⟩)

/-! ### Answers that have come -/

/-- With a response at hand and none held, an attempt takes it and records its event (R65, R66). -/
theorem auxRequest_answered (q : AuxReq) (r : Run) (a : AuxRsp) (rest : List AuxRsp)
    (hr : r.replay.aux = []) (h : r.s.env.auxRsps = a :: rest) :
    auxRequest q r = .ok a { r with s := emit (q.event a) { r.s with
      out.auxReq := none, env.auxRsps := rest, held.aux := r.s.held.aux ++ [a] } } := by
  simp [auxRequest, hr, h]

/-- Without a response the block waits with the request outstanding (R299). -/
theorem auxRequest_blocked (q : AuxReq) (r : Run) (hr : r.replay.aux = [])
    (h : r.s.env.auxRsps = []) :
    auxRequest q r = .error .blocked { r with s.out.auxReq := some q.word } := by
  simp [auxRequest, hr, h]

/-- With an acknowledgement to come and none held, a PHY operation is recorded (R72). -/
theorem phyOp_answered (op : PhyOpc) (arg : BitVec 16) (r : Run) (n : Nat)
    (hr : r.replay.acks = 0) (h : r.s.env.phyAcks = n + 1) :
    phyOp op arg r = .ok () { r with s := emit (.phy op arg) { r.s with
      out.phyReq := none, env.phyAcks := n, held.acks := r.s.held.acks + 1 } } := by
  simp [phyOp, hr, h]

/-- With a completion to come and none held, a wait is recorded (R74). -/
theorem waitUs_answered (us : BitVec 20) (r : Run) (n : Nat)
    (hr : r.replay.waits = 0) (h : r.s.env.waitDones = n + 1) :
    waitUs us r = .ok () { r with s := emit (.wait us) { r.s with
      out.waitReq := none, env.waitDones := n, held.waits := r.s.held.waits + 1 } } := by
  simp [waitUs, hr, h]

/-- With a sample scripted and none held, the poll returns it (R75). -/
theorem pollUnplug_answered (r : Run) (b : Bool) (rest : List Bool)
    (hr : r.replay.polls = []) (h : r.s.env.unplugs = b :: rest) :
    pollUnplug r = .ok b { r with s := emit (.poll b) { r.s with
      env.unplugs := rest, held.polls := r.s.held.polls ++ [b] } } := by
  simp [pollUnplug, nextUnplug, hr, h]

/-- With a sample scripted and none held, the PHY status is that sample (R73). -/
theorem phyStatus_answered (r : Run) (p : PhySample) (rest : List PhySample)
    (hr : r.replay.samples = []) (h : r.s.env.phySamples = p :: rest) :
    phyStatus r = .ok p { r with s := emit (.phyRd p) { r.s with
      env.phySamples := rest, held.samples := r.s.held.samples ++ [p] } } := by
  simp [phyStatus, nextPhySample, hr, h]

/-- An AUX transaction whose first answer is `ok` makes one event and leaves `aux_try` 0 (R66, R67). -/
theorem auxTransaction_first_ok (P : Params) (q : AuxReq) (r : Run) (a : AuxRsp) (rest : List AuxRsp)
    (hr : r.replay.aux = []) (h : r.s.env.auxRsps = a :: rest) (ha : a.err = false) :
    auxTransaction P q r = .ok a { r with s := emit (q.event a) { r.s with
      out.auxReq := none, env.auxRsps := rest, held.aux := r.s.held.aux ++ [a], auxTry := 0 } } := by
  unfold auxTransaction
  cases hm : P.auxRetryMax <;>
    simp [act_bind, auxLoop, auxRequest, hr, h, ha, emit]

end Sys2Proof.Machine
end

