-- ==== Sys2Proof/Laws/Actions.lean ====
section
/-! SUPPORT. What one step of each state can do, said once: from any state, the step of a state's action
ends with the block waiting for an answer, or ends the action; `…End` says how the action ends and `…Event`
which events it makes. Every later proof about a step is a case analysis of these. -/

namespace Sys2Proof.Machine

open Sys2Proof

/-! ### A fresh session -/

/-- The session registers of R137, written out, are those that the model resets. -/
@[simp] theorem freshSession_eq : freshSession = Session.reset := rfl

/-- The lane file of R231, written out, is the one that the model resets. -/
@[simp] theorem freshLanes_eq : freshLanes = Lanes.replicate Lane.reset := rfl

/-! ### The form of these lemmas -/

/-- What a piece of an action leads to, started after nothing but input and output from `s`: it ends, by
its last line or by an exception, in a state that `G` relates to the registers of `s`, or it blocks. -/
def LeadsTo (Q : Event → Prop) (G : State → State → Prop) (s : State) (a : Act Unit) : Prop :=
  ∀ r, IoOnly Q s r.s → NoRequest r.s → KeepsTry s r.s →
    match a r with
    | .ok _ r' => ∃ u, IoOnly Q s u ∧ NoRequest u ∧ KeepsTry s u ∧ G u r'.s
    | .error (.raised e) r' => ∃ u, IoOnly Q s u ∧ NoRequest u ∧ KeepsTry s u ∧ G u (takeException e r'.s)
    | .error .blocked r' => IoOnly Q s r'.s ∧ Unanswered r'.s ∧ KeepsTry s r'.s

/-- What a step that runs an action leads to. -/
def StepEnds (Q : Event → Prop) (G : State → State → Prop) (s t : State) : Prop :=
  (IoOnly Q s t ∧ Unanswered t ∧ KeepsTry s t) ∨
  ∃ u v, IoOnly Q s u ∧ NoRequest u ∧ KeepsTry s u ∧ G u v ∧ t = endAction v

theorem LeadsTo.io {α : Type} {Q R : Event → Prop} {E : Exn → Prop} {G : State → State → Prop} {s : State}
    {a : Act α} {f : α → Act Unit} (ha : DoesIo R E a) (hRQ : ∀ e, R e → Q e)
    (hE : ∀ e u, E e → IoOnly Q s u → G u (takeException e u)) (hf : ∀ x, LeadsTo Q G s (f x)) :
    LeadsTo Q G s (a >>= f) := by
  intro r h h1 h2
  have hr := (ha.mono hRQ (fun _ h => h)) r h1
  rw [act_bind]
  rcases ha' : a r with ⟨x, r'⟩ | ⟨e | _, r'⟩ <;> rw [ha'] at hr
  · exact hf x r' (h.trans hr.1) hr.2.1 (fun k => hr.2.2 (h2 k))
  · exact ⟨r'.s, h.trans hr.1, hr.2.1, fun k => hr.2.2.1 (h2 k), hE _ _ hr.2.2.2 (h.trans hr.1)⟩
  · exact ⟨h.trans hr.1, hr.2.1, fun k => hr.2.2 (h2 k)⟩

theorem LeadsTo.get {Q : Event → Prop} {G : State → State → Prop} {s : State} {f : State → Act Unit}
    (hf : ∀ x, IoOnly Q s x → LeadsTo Q G s (f x)) : LeadsTo Q G s (getState >>= f) :=
  fun r h h1 h2 => by rw [act_bind]; exact hf r.s h r h h1 h2

theorem LeadsTo.modify {Q : Event → Prop} {G : State → State → Prop} {s : State} {f : State → State}
    (hf : ∀ u, IoOnly Q s u → G u (f u)) : LeadsTo Q G s (modifyState f) :=
  fun r h h1 h2 => ⟨r.s, h, h1, h2, hf r.s h⟩

theorem LeadsTo.raise {Q : Event → Prop} {G : State → State → Prop} {s : State} {e : Exn}
    (he : ∀ u, IoOnly Q s u → G u (takeException e u)) : LeadsTo Q G s (raise e) :=
  fun r h h1 h2 => ⟨r.s, h, h1, h2, he r.s h⟩

theorem LeadsTo.ite {Q : Event → Prop} {G : State → State → Prop} {s : State} {c : Prop} [Decidable c]
    {a b : Act Unit} (ha : c → LeadsTo Q G s a) (hb : ¬ c → LeadsTo Q G s b) :
    LeadsTo Q G s (if c then a else b) := by
  split
  · exact ha ‹_›
  · exact hb ‹_›

/-- The state in which the action of `x` makes its first transaction. -/
def atStart (x : Fsm) (s : State) : State := dropRequests (goTo x s)

/-- A step that runs an action that does not write `phase`. -/
theorem runState_plain {Q : Event → Prop} {G : State → State → Prop} (x : Fsm) (s : State) (a : Act Unit)
    (h : LeadsTo Q G (atStart x s) a) :
    ∃ t, runState x a s = .next t ∧ StepEnds Q G (atStart x s) t := by
  have h0 := h ⟨atStart x s, s.held⟩ (IoOnly.refl _ _) ⟨rfl, rfl, rfl⟩ (fun k => k)
  unfold runState runAction
  rw [show dropRequests (goTo x s) = atStart x s from rfl, show (goTo x s).held = s.held from rfl]
  rcases ha : a ⟨atStart x s, s.held⟩ with ⟨u, r⟩ | ⟨e | _, r⟩ <;> rw [ha] at h0
  · obtain ⟨u, hu⟩ := h0; exact ⟨_, rfl, Or.inr ⟨u, _, hu.1, hu.2.1, hu.2.2.1, hu.2.2.2, rfl⟩⟩
  · obtain ⟨u, hu⟩ := h0; exact ⟨_, rfl, Or.inr ⟨u, _, hu.1, hu.2.1, hu.2.2.1, hu.2.2.2, rfl⟩⟩
  · exact ⟨_, rfl, Or.inl h0⟩

/-- A step that runs an action whose first line writes `phase`. -/
theorem runState_phase {Q : Event → Prop} {G : State → State → Prop} (x : Fsm) (p : Phase) (s : State)
    (a : Act Unit) (h : LeadsTo Q G (setPhase p (atStart x s)) a) :
    ∃ t, runState x (modifyState (setPhase p) >>= fun _ => a) s = .next t ∧
      StepEnds Q G (setPhase p (atStart x s)) t := by
  have h0 := h ⟨setPhase p (atStart x s), s.held⟩ (IoOnly.refl _ _) ⟨rfl, rfl, rfl⟩ (fun k => k)
  have hb : (modifyState (setPhase p) >>= fun _ => a) ⟨atStart x s, s.held⟩ =
      a ⟨setPhase p (atStart x s), s.held⟩ := act_bind _ _ _
  unfold runState runAction
  rw [show dropRequests (goTo x s) = atStart x s from rfl, show (goTo x s).held = s.held from rfl, hb]
  rcases ha : a ⟨setPhase p (atStart x s), s.held⟩ with ⟨u, r⟩ | ⟨e | _, r⟩ <;> rw [ha] at h0
  · obtain ⟨u, hu⟩ := h0; exact ⟨_, rfl, Or.inr ⟨u, _, hu.1, hu.2.1, hu.2.2.1, hu.2.2.2, rfl⟩⟩
  · obtain ⟨u, hu⟩ := h0; exact ⟨_, rfl, Or.inr ⟨u, _, hu.1, hu.2.1, hu.2.2.1, hu.2.2.2, rfl⟩⟩
  · exact ⟨_, rfl, Or.inl h0⟩

/-- `AuxFail` at some address. -/
def AuxFailed (u v : State) : Prop := ∃ a, v = takeException (.auxFail a) u

theorem AuxFailed.of {a : Addr} {e : Exn} {u : State} (he : e = .auxFail a) :
    AuxFailed u (takeException e u) := ⟨a, by rw [he]⟩

/-! ### CapNeg -/

/-- The events of `CapNeg`. -/
def capNegEvent : Event → Prop := auxEvents (.read 0x000 16)

/-- How `CapNeg` ends (R150, R152). -/
def CapNegEnd (u v : State) : Prop :=
  AuxFailed u v ∨ ∃ c : Caps,
    ((c.rateLegal && c.lanesLegal) = false ∧ v = takeException .capabilityMismatch (latchCaps c u)) ∨
    (∃ b, c = parseCaps Config.hw b ∧ c.rateLegal = true ∧ c.lanesLegal = true ∧
      v = goTo .phySetup (latchStart c (latchCaps c u)))

theorem capNeg_step (s : State) :
    ∃ t, exec .stCapNeg s = .next t ∧
      StepEnds capNegEvent CapNegEnd (setPhase .capNeg (atStart .capNeg s)) t := by
  refine runState_phase _ _ _ _ ?_
  refine LeadsTo.io (memRead_io 0x000 16) (fun _ h => h) (fun e u he _ => Or.inl (AuxFailed.of he)) ?_
  intro b r h h1 h2
  rw [act_bind]
  simp only [act_modifyState, act_ite, act_raise]
  by_cases hc : (!(parseCaps Config.hw b).rateLegal || !(parseCaps Config.hw b).lanesLegal) = true
  · rw [if_pos hc]
    refine ⟨r.s, h, h1, h2, Or.inr ⟨parseCaps Config.hw b, Or.inl ⟨?_, rfl⟩⟩⟩
    revert hc; cases (parseCaps Config.hw b).rateLegal <;> cases (parseCaps Config.hw b).lanesLegal <;> simp
  · rw [if_neg hc]
    refine ⟨r.s, h, h1, h2, Or.inr ⟨parseCaps Config.hw b, Or.inr ⟨b, rfl, ?_, ?_, rfl⟩⟩⟩ <;>
      (revert hc; cases (parseCaps Config.hw b).rateLegal <;>
        cases (parseCaps Config.hw b).lanesLegal <;> simp)

/-! ### PhySetup -/

/-- The link configuration that `PhySetup` writes (R163). -/
def linkConfigOf (s : State) : List Byte :=
  [rateCode Config.hw s.ses.curRate, laneCountSetByte Config.hw s.ses.curLanes s.ses.capEfc]

/-- The events of `PhySetup`. -/
def phySetupEvent (s : State) (e : Event) : Prop :=
  (∃ b, e = .poll b) ∨ (∃ p, e = .phyRd p) ∨ e ∈ phyBlockEvents s ∨ e = .phy .setPattern 1 ∨
    auxEvents (.write 0x100 (linkConfigOf s)) e ∨ auxEvents (.write 0x102 [0x21]) e

/-- How `PhySetup` ends (R160). -/
def PhySetupEnd (u v : State) : Prop :=
  v = goTo .linkUnplugged u ∨ AuxFailed u v ∨ v = goTo .clockRecovery u

theorem phyProgram_io (s : State) : DoesIo (· ∈ phyBlockEvents s) NoExn (phyProgram s) := by
  have key : ∀ op arg, Event.phy op arg ∈ phyBlockEvents s →
      DoesIo (· ∈ phyBlockEvents s) NoExn (phyOp op arg) :=
    fun op arg h => (phyOp_io op arg).mono (fun e he => he ▸ h) (fun _ h => h)
  unfold phyProgram
  refine (key _ _ (by simp [phyBlockEvents, argOfBit])).bind fun _ => ?_
  refine (key _ _ (by simp [phyBlockEvents])).bind fun _ => ?_
  refine (key _ _ (by simp [phyBlockEvents])).bind fun _ => ?_
  refine (key _ _ (by simp [phyBlockEvents])).bind fun _ => ?_
  have tail : DoesIo (· ∈ phyBlockEvents s) NoExn (do
      phyOp .reset (argOfBit false)
      phyOp .postInit 0
      phyOp .waitPllLock 0) := by
    refine (key _ _ (by simp [phyBlockEvents, argOfBit])).bind fun _ => ?_
    refine (key _ _ (by simp [phyBlockEvents])).bind fun _ => ?_
    exact key _ _ (by simp [phyBlockEvents])
  by_cases h : s.ses.capEfc = true
  · simp only [h, if_true]
    exact (key _ _ (by simp [phyBlockEvents, h, argOfBit])).bind fun _ => tail
  · simp only [h]
    exact tail

/-- The burst at 0x100, after nothing but input and output since `s` (R163). -/
theorem writeLinkConfig_run {Q : Event → Prop} (s : State) (p : Phase) (x : Fsm) (r : Run)
    (h : IoOnly Q (setPhase p (atStart x s)) r.s) :
    writeLinkConfig Config.hw s.ses.curRate r = memWrite Config.hw 0x100 (linkConfigOf s) r := by
  rw [writeLinkConfig, act_bind, act_getState]
  simp only [h.ses]
  rfl

theorem LeadsTo.congr {Q : Event → Prop} {G : State → State → Prop} {s : State} {a b : Act Unit}
    (hab : ∀ r, IoOnly Q s r.s → a r = b r) (hb : LeadsTo Q G s b) : LeadsTo Q G s a :=
  fun r h h1 h2 => by rw [hab r h]; exact hb r h h1 h2

theorem phySetup_step (s : State) :
    ∃ t, exec .stPhySetup s = .next t ∧
      StepEnds (phySetupEvent s) PhySetupEnd (setPhase .phySetup (atStart .phySetup s)) t := by
  refine runState_phase _ _ _ _ ?_
  have auxf : ∀ (a : Addr) e u, e = Exn.auxFail a →
      IoOnly (phySetupEvent s) (setPhase .phySetup (atStart .phySetup s)) u →
      PhySetupEnd u (takeException e u) := fun a e u he _ => Or.inr (Or.inl (AuxFailed.of he))
  refine LeadsTo.io pollPoint_io (fun e h => Or.inl h)
    (fun e u he _ => Or.inl (by rw [he]; rfl)) fun _ => ?_
  refine LeadsTo.io phyStatus_io (fun e h => Or.inr (Or.inl h)) (fun _ _ h => h.elim) fun p => ?_
  refine LeadsTo.get fun x hx => ?_
  have hxs : x.ses = { s.ses with phase := .phySetup } := hx.ses
  have hblk : phyBlockEvents x = phyBlockEvents s := by simp only [phyBlockEvents, hxs]
  have tail : LeadsTo (phySetupEvent s) PhySetupEnd (setPhase .phySetup (atStart .phySetup s))
      (do
        writeLinkConfig Config.hw x.ses.curRate
        phySetPatternOp .tps1
        writePatternByte Config.hw .tps1
        modifyState (goTo .clockRecovery)) := by
    refine LeadsTo.congr (b := do
        memWrite Config.hw 0x100 (linkConfigOf s)
        phySetPatternOp .tps1
        writePatternByte Config.hw .tps1
        modifyState (goTo .clockRecovery)) ?_ ?_
    · intro r hr
      rw [act_bind, act_bind, hxs, ← writeLinkConfig_run s _ _ r hr]
    · refine LeadsTo.io (memWrite_io _ _)
        (fun e h => Or.inr (Or.inr (Or.inr (Or.inr (Or.inl h))))) (auxf _) fun _ => ?_
      refine LeadsTo.io (phyOp_io _ _) (fun e h => Or.inr (Or.inr (Or.inr (Or.inl h))))
        (fun _ _ h => h.elim) fun _ => ?_
      refine LeadsTo.io (memWrite_io _ _)
        (fun e h => Or.inr (Or.inr (Or.inr (Or.inr (Or.inr h))))) (auxf _) fun _ => ?_
      exact LeadsTo.modify fun u _ => Or.inr (Or.inr rfl)
  by_cases hd : phyDiffers Config.hw p x.ses.curRate x.ses.curLanes = true
  · simp only [hd, if_true]
    exact LeadsTo.io (phyProgram_io x) (fun e h => Or.inr (Or.inr (Or.inl (hblk ▸ h))))
      (fun _ _ h => h.elim) fun _ => tail
  · simp only [hd]
    exact tail

/-! ### ClockRecovery -/

/-- The events of a training round whose status read is of `n` bytes. -/
def roundEvent (n : Nat) (s : State) (e : Event) : Prop :=
  (∃ b, e = .poll b) ∨ e = .phy .setVoltPe (lanesArg s.lanes) ∨
    auxEvents (.write 0x103 (laneSetBytes Config.hw s.lanes)) e ∨
    e = .wait (readIntervalUs Config.hw s.ses.rdInterval) ∨
    auxEvents (.read 0x202 n) e ∨ auxEvents (.read 0x206 2) e

/-- The first lines of a round, up to its status read of `n` bytes (R170, R197). -/
theorem LeadsTo.round {G : State → State → Prop} {n : Nat} {s : State} {f : List Byte → Act Unit}
    (x : Fsm) (p : Phase)
    (hu : ∀ u, G u (goTo .linkUnplugged u)) (ha : ∀ a u, G u (takeException (.auxFail a) u))
    (hf : ∀ b, LeadsTo (roundEvent n s) G (setPhase p (atStart x s)) (f b)) :
    LeadsTo (roundEvent n s) G (setPhase p (atStart x s)) (do
      pollPoint
      programLanes Config.hw
      waitReadInterval Config.hw
      let b ← memRead Config.hw 0x202 n
      f b) := by
  refine LeadsTo.io pollPoint_io (fun e h => Or.inl h)
    (fun e u he _ => by rw [he]; exact hu u) fun _ => ?_
  unfold programLanes waitReadInterval
  simp only [bind_assoc]
  refine LeadsTo.get fun x hx => ?_
  rw [hx.lanes]
  refine LeadsTo.io (phyOp_io _ _) (fun e h => Or.inr (Or.inl h)) (fun _ _ h => h.elim) fun _ => ?_
  refine LeadsTo.io (memWrite_io _ _) (fun e h => Or.inr (Or.inr (Or.inl h)))
    (fun e u he _ => by rw [he]; exact ha _ u) fun _ => ?_
  refine LeadsTo.get fun y hy => ?_
  rw [hy.ses]
  refine LeadsTo.io (waitUs_io _) (fun e h => Or.inr (Or.inr (Or.inr (Or.inl h))))
    (fun _ _ h => h.elim) fun _ => ?_
  exact LeadsTo.io (memRead_io _ _) (fun e h => Or.inr (Or.inr (Or.inr (Or.inr (Or.inl h)))))
    (fun e u he _ => by rw [he]; exact ha _ u) hf

/-- How `ClockRecovery` ends (R170, R173 to R176). -/
def ClockRecoveryEnd (u v : State) : Prop :=
  v = goTo .linkUnplugged u ∨ AuxFailed u v ∨ v = goTo .equalizationSetup u ∨
    v = goTo .reduceLinkRate u ∨ ∃ q, v = crAfterAdjust Config.hw q u

theorem clockRecovery_step (s : State) :
    ∃ t, exec .stClockRecovery s = .next t ∧
      StepEnds (roundEvent 2 s) ClockRecoveryEnd (setPhase .cr (atStart .clockRecovery s)) t := by
  refine runState_phase _ _ _ _ ?_
  refine LeadsTo.round _ _ (fun u => Or.inl rfl) (fun a u => Or.inr (Or.inl ⟨a, rfl⟩)) fun b => ?_
  refine LeadsTo.get fun x _ => LeadsTo.ite (fun _ => ?_) fun _ => LeadsTo.ite (fun _ => ?_) fun _ => ?_
  · exact LeadsTo.modify fun u _ => Or.inr (Or.inr (Or.inl rfl))
  · exact LeadsTo.modify fun u _ => Or.inr (Or.inr (Or.inr (Or.inl rfl)))
  · refine LeadsTo.io (memRead_io _ _) (fun e h => Or.inr (Or.inr (Or.inr (Or.inr (Or.inr h)))))
      (fun e u he _ => Or.inr (Or.inl (AuxFailed.of he))) fun a => ?_
    exact LeadsTo.modify fun u _ => Or.inr (Or.inr (Or.inr (Or.inr ⟨parseAdjust a, rfl⟩)))

/-! ### ReduceLinkRate -/

/-- `ReduceLinkRate` makes no event and never waits (R185, R188, R191). -/
theorem reduceLinkRate_step (s : State) :
    exec .stReduceLinkRate s = .next (endAction (if s.ses.curRate = 0
      then enterFailed .trainingExhausted (atStart .reduceLinkRate s)
      else stepDown (s.ses.curRate - 1) (atStart .reduceLinkRate s))) := by
  show runState .reduceLinkRate (reduceLinkRateAct Config.hw) s = _
  unfold runState runAction reduceLinkRateAct
  rw [act_bind, act_getState]
  have h' : (dropRequests (goTo .reduceLinkRate s)).ses.curRate = s.ses.curRate := rfl
  simp only [h', nextRate_hw]
  by_cases h : s.ses.curRate = 0
  · simp only [h, if_true]; rfl
  · simp only [h, if_false]; rfl

/-! ### EqualizationSetup -/

/-- The events of `EqualizationSetup`. -/
def eqSetupEvent (e : Event) : Prop :=
  ∃ p ∈ [Pattern.tps2, .tps3, .tps4],
    e = .phy .setPattern (p.code.setWidth 16) ∨ auxEvents (.write 0x102 [tpsetByte Config.hw p]) e

/-- How `EqualizationSetup` ends (R195). -/
def EqSetupEnd (u v : State) : Prop := AuxFailed u v ∨ v = goTo .equalization u

theorem selectEqPattern_mem (P : Params) (a b : Bool) :
    selectEqPattern P a b ∈ [Pattern.tps2, .tps3, .tps4] := by
  unfold selectEqPattern
  split
  · simp
  · split <;> simp

theorem equalizationSetup_step (s : State) :
    ∃ t, exec .stEqualizationSetup s = .next t ∧
      StepEnds eqSetupEvent EqSetupEnd (setPhase .eqSetup (atStart .equalizationSetup s)) t := by
  refine runState_phase _ _ _ _ (LeadsTo.get fun x _ => ?_)
  have hp := selectEqPattern_mem Config.hw x.ses.capTps3 x.ses.capTps4
  refine LeadsTo.io (phyOp_io _ _) (fun e h => ⟨_, hp, Or.inl h⟩) (fun _ _ h => h.elim) fun _ => ?_
  refine LeadsTo.io (memWrite_io _ _) (fun e h => ⟨_, hp, Or.inr h⟩)
    (fun e u he _ => Or.inl (AuxFailed.of he)) fun _ => ?_
  exact LeadsTo.modify fun u _ => Or.inr rfl

/-! ### Equalization -/

/-- How `Equalization` ends (R197 to R202). -/
def EqualizationEnd (u v : State) : Prop :=
  v = goTo .linkUnplugged u ∨ AuxFailed u v ∨ v = goTo .reduceLinkRate u ∨ v = goTo .success u ∨
    v = enterFailed .trainingExhausted u ∨
    (u.ses.eqRetryCnt.toNat < 5 ∧ ∃ q, v = eqRetry Config.hw q u)

theorem equalization_step (s : State) :
    ∃ t, exec .stEqualization s = .next t ∧
      StepEnds (roundEvent 3 s) EqualizationEnd (setPhase .eq (atStart .equalization s)) t := by
  refine runState_phase _ _ _ _ ?_
  refine LeadsTo.round _ _ (fun u => Or.inl rfl) (fun a u => Or.inr (Or.inl ⟨a, rfl⟩)) fun b => ?_
  refine LeadsTo.get fun x hx => LeadsTo.ite (fun _ => ?_) fun _ => LeadsTo.ite (fun _ => ?_) fun _ =>
    LeadsTo.ite (fun _ => ?_) fun hlt => ?_
  · exact LeadsTo.modify fun u _ => Or.inr (Or.inr (Or.inl rfl))
  · exact LeadsTo.modify fun u _ => Or.inr (Or.inr (Or.inr (Or.inl rfl)))
  · exact LeadsTo.raise fun u _ => Or.inr (Or.inr (Or.inr (Or.inr (Or.inl rfl))))
  · refine LeadsTo.io (memRead_io _ _) (fun e h => Or.inr (Or.inr (Or.inr (Or.inr (Or.inr h)))))
      (fun e u he _ => Or.inr (Or.inl (AuxFailed.of he))) fun a => ?_
    refine LeadsTo.modify fun u hu =>
      Or.inr (Or.inr (Or.inr (Or.inr (Or.inr ⟨?_, parseAdjust a, rfl⟩))))
    have h5 : ¬ 5 ≤ x.ses.eqRetryCnt.toNat := hlt
    rw [hx.ses] at h5
    rw [hu.ses]
    omega

/-! ### Terminal states -/

/-- The events of `Success`. -/
def successEvent (e : Event) : Prop :=
  e = .phy .setPattern 0 ∨ auxEvents (.write 0x102 [0x00]) e

/-- How `Success` ends (R200). -/
def SuccessEnd (u v : State) : Prop := AuxFailed u v ∨ v = doneCmd .ok u

theorem success_step (s : State) :
    ∃ t, exec .stSuccess s = .next t ∧
      StepEnds successEvent SuccessEnd (atStart .success s) t := by
  refine runState_plain _ _ _ ?_
  refine LeadsTo.io (phyOp_io _ _) (fun e h => Or.inl h) (fun _ _ h => h.elim) fun _ => ?_
  refine LeadsTo.io (memWrite_io _ _) (fun e h => Or.inr h)
    (fun e u he _ => Or.inl (AuxFailed.of he)) fun _ => ?_
  exact LeadsTo.modify fun u _ => Or.inr rfl

/-- A swallowed `AuxFail` leaves nothing to catch (R274). -/
theorem swallowAuxFail_io {Q : Event → Prop} {addr : Addr} {a : Act Unit}
    (h : DoesIo Q (· = .auxFail addr) a) : DoesIo Q NoExn (swallowAuxFail a) := by
  intro r h1
  have hr := h r h1
  unfold swallowAuxFail
  rcases ha : a r with ⟨x, r'⟩ | ⟨e | _, r'⟩ <;> rw [ha] at hr
  · exact hr
  · obtain ⟨k1, k2, k3, rfl⟩ := hr; exact ⟨k1, k2, k3⟩
  · exact hr

/-- `Failed` ends with its pending code (R264). -/
theorem failed_step (s : State) :
    ∃ t, exec .stFailed s = .next t ∧
      StepEnds (auxEvents (.write 0x102 [0x00])) (fun u v => v = doneCmd (failResult u.failCode) u)
        (atStart .failed s) t := by
  refine runState_plain _ _ _ ?_
  refine LeadsTo.io (swallowAuxFail_io (memWrite_io _ _)) (fun e h => h) (fun _ _ h => h.elim) fun _ => ?_
  exact LeadsTo.modify fun u _ => rfl

/-- `LinkUnplugged` only completes (R265). -/
theorem linkUnplugged_step (s : State) :
    exec .stLinkUnplugged s = .next (endAction (doneCmd .linkUnplugged (atStart .linkUnplugged s))) :=
  rfl

/-- The events of `HealthCheck`. -/
def healthEvent (e : Event) : Prop :=
  auxEvents (.read 0x100 2) e ∨ auxEvents (.read 0x202 3) e ∨ ∃ p, e = .phyRd p

/-- How `HealthCheck` ends (R245, R263). -/
def HealthEnd (u v : State) : Prop :=
  v = doneCmd .auxTransportError u ∨ v = doneCmd .ok u ∨ v = doneCmd .retrainRequired u

theorem healthVerdict_or (P : Params) (b s : List Byte) (p : PhySample) :
    healthVerdict P b s p = .ok ∨ healthVerdict P b s p = .retrainRequired := by
  unfold healthVerdict
  dsimp only
  repeat' split
  all_goals simp

theorem healthCheck_step (s : State) :
    ∃ t, exec .stHealthCheck s = .next t ∧
      StepEnds healthEvent HealthEnd (setPhase .health (atStart .healthCheck s)) t := by
  refine runState_phase _ _ _ _ ?_
  have hE : ∀ (a : Addr) e u, e = Exn.auxFail a →
      IoOnly healthEvent (setPhase .health (atStart .healthCheck s)) u →
      HealthEnd u (takeException e u) := by
    intro a e u he hu
    have hst : u.st = .healthCheck := hu.st
    exact Or.inl (by rw [he]; simp [takeException, hst])
  refine LeadsTo.io (memRead_io _ _) (fun e h => Or.inl h) (hE _) fun b => ?_
  refine LeadsTo.io (memRead_io _ _) (fun e h => Or.inr (Or.inl h)) (hE _) fun t => ?_
  refine LeadsTo.io phyStatus_io (fun e h => Or.inr (Or.inr h)) (fun _ _ h => h.elim) fun p => ?_
  refine LeadsTo.modify fun u _ => Or.inr ?_
  rcases healthVerdict_or Config.hw b t p with h | h <;> simp [h]

/-- `Idle` only ends (R134). -/
theorem idle_step (s : State) : exec .stIdle s = .next (endAction (atStart .idle s)) := rfl

end Sys2Proof.Machine
end

