-- ==== Sys2Proof/Laws/Attempts.lean ====
section
/-! SUPPORT. What an AUX transaction with all its attempts at hand does, exactly: one lemma for a read and
one for a write that are answered, one each for five failed attempts (R66, R67). -/

namespace Sys2Proof.Machine

open Sys2Proof

/-- The parts of an answered transaction. -/
theorem Attempts.answered_iff (x : Attempts) :
    x.answered = true ↔ x.errs.length ≤ 4 ∧ (∀ a ∈ x.errs, a.err = true) ∧ x.last.err = false := by
  simp [Attempts.answered, and_assoc]

/-- The parts of a failed transaction. -/
theorem Attempts.failed_iff (x : Attempts) :
    x.failed = true ↔ x.errs.length = 4 ∧ (∀ a ∈ x.errs, a.err = true) ∧ x.last.err = true := by
  simp [Attempts.failed, and_assoc]

/-- The events of a transaction with all its attempts. -/
def Attempts.events (x : Attempts) (q : AuxReq) : List Event :=
  x.errs.flatMap (fun a => [q.event a, .wait 50000]) ++ [q.event x.last]

/-- The state after failed attempts and their waits. -/
def afterErrs (q : AuxReq) (errs rest : List AuxRsp) (w : Nat) (s : State) : State :=
  { s with
    auxTry := s.auxTry + BitVec.ofNat 3 errs.length,
    out := { s.out with auxReq := none, waitReq := none },
    env := { s.env with auxRsps := rest, waitDones := w },
    held := { s.held with aux := s.held.aux ++ errs, waits := s.held.waits + errs.length },
    trace := s.trace ++ errs.flatMap fun a => [q.event a, .wait 50000] }

/-- The retry loop takes failed attempts one by one (R66). -/
theorem auxLoop_errs (q : AuxReq) (errs : List AuxRsp) :
    ∀ (left : Nat) (r : Run) (rest : List AuxRsp) (w : Nat), (∀ a ∈ errs, a.err = true) →
      r.replay.aux = [] → r.replay.waits = 0 → r.s.out.auxReq = none → r.s.out.waitReq = none →
      r.s.env.auxRsps = errs ++ rest → r.s.env.waitDones = errs.length + w →
      auxLoop Config.hw q (left + errs.length) r =
        auxLoop Config.hw q left { r with s := afterErrs q errs rest w r.s } := by
  induction errs with
  | nil =>
    intro left r rest w _ h1 h2 h3 h4 h5 h6
    have : ({ r with s := afterErrs q [] rest w r.s } : Run) = r := by
      obtain ⟨⟨st, cmd, ses, lanes, res, fc, try_, ⟨d, oa, op, ow⟩, ⟨e1, e2, e3, e4, e5, e6, e7⟩,
        ⟨k1, k2, k3, k4, k5⟩, tick, tr⟩, p⟩ := r
      simp_all [afterErrs]
    rw [this]; rfl
  | cons x xs ih =>
    intro left r rest w he h1 h2 h3 h4 h5 h6
    have hx := he x (by simp)
    obtain ⟨⟨st, cmd, ses, lanes, res, fc, try_, ⟨d, oa, op, ow⟩, ⟨e1, e2, e3, e4, e5, e6, e7⟩,
      ⟨k1, k2, k3, k4, k5⟩, tick, tr⟩, ⟨p1, p2, p3, p4, p5⟩⟩ := r
    simp only at h1 h2 h3 h4 h5 h6
    subst h1 h2 h3 h4 h5
    obtain rfl : e6 = (xs.length + w) + 1 := by simp only [List.length_cons] at h6; omega
    rw [List.length_cons, ← Nat.add_assoc, auxLoop]
    simp only [act_bind, auxRequest, List.cons_append, hx, if_true, act_modifyState, waitUs, emit]
    rw [ih left _ rest w (fun y hy => he y (by simp [hy])) rfl rfl rfl rfl rfl rfl]
    congr 1
    simp only [afterErrs, List.length_cons, List.flatMap_cons, List.append_assoc, Run.mk.injEq,
      State.mk.injEq, Held.mk.injEq, true_and, and_true]
    refine ⟨?_, ⟨rfl, by omega⟩, rfl⟩
    rw [BitVec.add_assoc]
    congr 1
    apply BitVec.eq_of_toNat_eq
    simp [Nat.add_comm]

/-- What a transaction that ends with its last attempt leaves. -/
def afterAttempts (x : Attempts) (events : List Event) (rest : List AuxRsp) (w : Nat) (s : State) : State :=
  { s with
    auxTry := x.tries,
    out := { s.out with auxReq := none, waitReq := none },
    env := { s.env with auxRsps := rest, waitDones := w },
    held := { s.held with aux := s.held.aux ++ x.responses, waits := s.held.waits + x.waits },
    trace := s.trace ++ events }

/-- The block is about to make the attempts `x` with nothing to replay. -/
structure Ready (x : Attempts) (rest : List AuxRsp) (w : Nat) (r : Run) : Prop where
  aux : r.replay.aux = []
  waits : r.replay.waits = 0
  auxReq : r.s.out.auxReq = none
  waitReq : r.s.out.waitReq = none
  auxRsps : r.s.env.auxRsps = x.responses ++ rest
  waitDones : r.s.env.waitDones = x.waits + w

/-- An answered transaction returns its last response (R66). -/
theorem auxTransaction_answered {q : AuxReq} {x : Attempts} {r : Run} {rest : List AuxRsp} {w : Nat}
    (hx : x.answered = true) (h : Ready x rest w r) :
    auxTransaction Config.hw q r =
      .ok x.last { r with s := afterAttempts x (x.events q) rest w r.s } := by
  obtain ⟨hl, he, ha⟩ := x.answered_iff.mp hx
  obtain ⟨h1, h2, h3, h4, h5, h6⟩ := h
  unfold auxTransaction
  rw [act_bind]
  simp only [act_modifyState]
  rw [show Config.hw.auxRetryMax = (4 - x.errs.length) + x.errs.length by simp; omega,
    auxLoop_errs q x.errs _ { r with s.auxTry := 0 } (x.last :: rest) w he h1 h2 h3 h4
      (by simpa [Attempts.responses] using h5) h6]
  cases 4 - x.errs.length <;>
    simp [auxLoop, act_bind, auxRequest, afterErrs, afterAttempts, h1, ha, emit, Attempts.events,
      Attempts.responses, Attempts.waits, Attempts.tries]

/-- Five failed attempts raise `AuxFail` (R66). -/
theorem auxTransaction_failed {q : AuxReq} {x : Attempts} {r : Run} {rest : List AuxRsp} {w : Nat}
    (hx : x.failed = true) (h : Ready x rest w r) :
    auxTransaction Config.hw q r =
      .error (.raised (.auxFail q.addr)) { r with s := afterAttempts x (x.events q) rest w r.s } := by
  obtain ⟨hl, he, ha⟩ := x.failed_iff.mp hx
  obtain ⟨h1, h2, h3, h4, h5, h6⟩ := h
  unfold auxTransaction
  rw [act_bind]
  simp only [act_modifyState]
  rw [show Config.hw.auxRetryMax = 0 + x.errs.length by simp; omega,
    auxLoop_errs q x.errs _ { r with s.auxTry := 0 } (x.last :: rest) w he h1 h2 h3 h4
      (by simpa [Attempts.responses] using h5) h6]
  simp [auxLoop, act_bind, auxRequest, afterErrs, afterAttempts, h1, ha, emit, Attempts.events,
    Attempts.responses, Attempts.waits, Attempts.tries]

theorem flatMap_errs {f : AuxRsp → List Event} {l : List Event} {errs : List AuxRsp}
    (h : ∀ a, a.err = true → f a = l) (he : ∀ a ∈ errs, a.err = true) :
    errs.flatMap f = errs.flatMap fun _ => l := by
  induction errs with
  | nil => rfl
  | cons a as ih =>
    rw [List.flatMap_cons, List.flatMap_cons, h a (he a (by simp)), ih fun b hb => he b (by simp [hb])]

/-- The events of the attempts of a read. -/
theorem Attempts.events_read {x : Attempts} (he : ∀ a ∈ x.errs, a.err = true) (addr : Addr) (n : Nat) :
    x.events (.read addr n) = x.readEvents addr n := by
  unfold Attempts.events Attempts.readEvents
  rw [flatMap_errs (l := [.auxRd addr n none, .wait 50000]) (fun a h => by simp [AuxReq.event, h]) he]
  rfl

/-- The events of the attempts of a write. -/
theorem Attempts.events_write {x : Attempts} (he : ∀ a ∈ x.errs, a.err = true) (addr : Addr)
    (v : List Byte) : x.events (.write addr v) = x.writeEvents addr v := by
  unfold Attempts.events Attempts.writeEvents
  rw [flatMap_errs (l := [.auxWr addr v false, .wait 50000]) (fun a h => by simp [AuxReq.event, h]) he]
  rfl

/-- A read answered after at most four failed attempts (R66). -/
theorem memRead_answered {x : Attempts} {r : Run} {rest : List AuxRsp} {w : Nat} (addr : Addr) (n : Nat)
    (hx : x.answered = true) (h : Ready x rest w r) :
    memRead Config.hw addr n r =
      .ok (x.bytes n) { r with s := afterAttempts x (x.readEvents addr n) rest w r.s } := by
  rw [← Attempts.events_read (x.answered_iff.mp hx).2.1]
  unfold memRead
  rw [act_bind, auxTransaction_answered hx h]
  rfl

/-- A read that fails five times (R66). -/
theorem memRead_failed {x : Attempts} {r : Run} {rest : List AuxRsp} {w : Nat} (addr : Addr) (n : Nat)
    (hx : x.failed = true) (h : Ready x rest w r) :
    memRead Config.hw addr n r = .error (.raised (.auxFail addr))
      { r with s := afterAttempts x (x.readEvents addr n) rest w r.s } := by
  rw [← Attempts.events_read (x.failed_iff.mp hx).2.1]
  unfold memRead
  rw [act_bind, auxTransaction_failed hx h]
  rfl

/-- A write answered after at most four failed attempts (R67). -/
theorem memWrite_answered {x : Attempts} {r : Run} {rest : List AuxRsp} {w : Nat} (addr : Addr)
    (v : List Byte) (hx : x.answered = true) (h : Ready x rest w r) :
    memWrite Config.hw addr v r =
      .ok () { r with s := afterAttempts x (x.writeEvents addr v) rest w r.s } := by
  rw [← Attempts.events_write (x.answered_iff.mp hx).2.1]
  unfold memWrite
  rw [act_bind, auxTransaction_answered hx h]
  rfl

/-- A write that fails five times (R67). -/
theorem memWrite_failed {x : Attempts} {r : Run} {rest : List AuxRsp} {w : Nat} (addr : Addr)
    (v : List Byte) (hx : x.failed = true) (h : Ready x rest w r) :
    memWrite Config.hw addr v r = .error (.raised (.auxFail addr))
      { r with s := afterAttempts x (x.writeEvents addr v) rest w r.s } := by
  rw [← Attempts.events_write (x.failed_iff.mp hx).2.1]
  unfold memWrite
  rw [act_bind, auxTransaction_failed hx h]
  rfl

end Sys2Proof.Machine
end

