-- ==== Sys2Proof/Laws/Lanes.lean ====
section
/-! SUPPORT. The small lemmas of `Lanes`: the value of each lane after every way to build one. -/

namespace Sys2Proof

variable {α β : Type}

@[simp] theorem Lanes.get_ofFn (f : LaneIdx → α) (i : LaneIdx) : (Lanes.ofFn f).get i = f i := by
  simp only [Lanes.get, Lanes.ofFn, List.get_eq_getElem, List.getElem_ofFn]; rfl

@[simp] theorem Lanes.get_replicate (a : α) (i : LaneIdx) : (Lanes.replicate a).get i = a := by
  simp only [Lanes.get, Lanes.replicate, List.get_eq_getElem, List.getElem_replicate]

@[simp] theorem Lanes.get_map (f : α → β) (q : Lanes α) (i : LaneIdx) : (q.map f).get i = f (q.get i) := by
  simp only [Lanes.get, Lanes.map, List.get_eq_getElem, List.getElem_map]; rfl

/-- The value of a lane in the list of values. -/
theorem Lanes.getD_toList (q : Lanes α) (i : LaneIdx) (d : α) : q.toList.getD i.val d = q.get i := by
  have h : i.val < q.toList.length := by rw [q.length_toList]; exact i.isLt
  rw [List.getD_eq_getElem _ _ h]; rfl

/-- Values with the same value in every lane are equal. -/
theorem Lanes.ext_get {p q : Lanes α} (h : ∀ i, p.get i = q.get i) : p = q := by
  obtain ⟨l, hl⟩ := p
  obtain ⟨m, hm⟩ := q
  have : l = m := by
    apply List.ext_getElem (hl.trans hm.symm)
    intro n h1 h2
    exact h ⟨n, by rw [← hl]; exact h1⟩
  subst this; rfl

/-- The list of the values of the four lanes. -/
theorem Lanes.toList_eq (q : Lanes α) : q.toList = [q.get 0, q.get 1, q.get 2, q.get 3] := by
  obtain ⟨l, hl⟩ := q
  match l, hl with
  | [_, _, _, _], _ => rfl

end Sys2Proof
end

