-- ==== Sys2Proof/Laws/Bits.lean ====
section
/-! SUPPORT. The bits and the fields of the words of 30_encoding.md. -/

namespace Sys2Proof

/-! ### Bits -/

theorem packLevels_getLsbD (l : List Level) (j : Nat) :
    (packLevels l).getLsbD j = (decide (j < 16) && (l.getD (j / 2) 0).getLsbD (j % 2)) := by
  induction l generalizing j with
  | nil => simp [packLevels]
  | cons x xs ih =>
    simp only [packLevels, BitVec.getLsbD_or, BitVec.getLsbD_shiftLeft, BitVec.getLsbD_setWidth, ih]
    by_cases hj : j < 2
    · rw [show j / 2 = 0 by omega, show j % 2 = j by omega]; simp [hj]
    · rw [show j / 2 = (j - 2) / 2 + 1 by omega, show j % 2 = (j - 2) % 2 by omega,
        BitVec.getLsbD_of_ge x j (by omega)]
      by_cases hk : j < 16 <;> simp [hj, hk]
      omega

theorem voltPeArg_getLsbD (sw pe : Lanes Level) (j : Nat) (hj : j < 16) :
    (voltPeArg sw pe).getLsbD j =
      if j < 8 then (sw.toList.getD (j / 2) 0).getLsbD (j % 2)
      else (pe.toList.getD ((j - 8) / 2) 0).getLsbD (j % 2) := by
  have hs : sw.toList.length = 4 := sw.length_toList
  unfold voltPeArg
  simp only [BitVec.getLsbD_or, BitVec.getLsbD_shiftLeft, packLevels_getLsbD]
  by_cases h8 : j < 8
  · simp [hj, h8]
  · have h0 : sw.toList.getD (j / 2) 0 = 0 := by
      rw [List.getD_eq_getElem?_getD, List.getElem?_eq_none (by omega)]; rfl
    rw [h0, if_neg h8, show (j - 8) % 2 = j % 2 by omega]
    simp [hj, h8]
    intro _; omega

theorem cmdWord_getLsbD (b : BitVec 1) (n : LaneCount) (r : RateIdx) (op : BitVec 2) (j : Nat) :
    (cmdWord b n r op).getLsbD j =
      if j < 2 then op.getLsbD j else if j < 4 then r.getLsbD (j - 2)
      else if j < 7 then n.getLsbD (j - 4) else b.getLsbD (j - 7) := by
  show BitVec.getLsbD (w := 1 + 3 + 2 + 2) (b ++ n ++ r ++ op) j = _
  simp only [BitVec.getLsbD_append, Nat.sub_sub]
  split_ifs <;> first | rfl | omega

theorem resWordOf_getLsbD (v : BitVec 1) (op : BitVec 2) (c p : BitVec 3) (r : RateIdx)
    (n : LaneCount) (j : Nat) :
    (resWordOf v op c p r n).getLsbD j =
      if j < 1 then v.getLsbD j else if j < 3 then op.getLsbD (j - 1)
      else if j < 6 then c.getLsbD (j - 3) else if j < 9 then p.getLsbD (j - 6)
      else if j < 11 then r.getLsbD (j - 9) else n.getLsbD (j - 11) := by
  show BitVec.getLsbD (w := 2 + 3 + 2 + 3 + 3 + 2 + 1) (0#2 ++ n ++ r ++ p ++ c ++ op ++ v) j = _
  simp only [BitVec.getLsbD_append, Nat.sub_sub]
  split_ifs <;> first | rfl | omega | skip
  rw [BitVec.getLsbD_of_ge n _ (by omega)]
  simp

theorem phyReqWord_getLsbD (op : PhyOpc) (arg : BitVec 16) (j : Nat) :
    (phyReqWord op arg).getLsbD j = if j < 4 then op.code.getLsbD j else arg.getLsbD (j - 4) := by
  show BitVec.getLsbD (w := 16 + 4) (arg ++ op.code) j = _
  simp only [BitVec.getLsbD_append]

theorem auxReqWord_getLsbD (rw : BitVec 1) (addr : Addr) (len : BitVec 5) (data : BitVec 128) (j : Nat) :
    (auxReqWord rw addr len data).getLsbD j =
      if j < 1 then rw.getLsbD j else if j < 21 then addr.getLsbD (j - 1)
      else if j < 26 then len.getLsbD (j - 21) else data.getLsbD (j - 26) := by
  show BitVec.getLsbD (w := 128 + 5 + 20 + 1) (data ++ len ++ addr ++ rw) j = _
  simp only [BitVec.getLsbD_append, Nat.sub_sub]
  split_ifs <;> first | rfl | omega

/-! ### Fields -/

/-- A field of a word is given by its bits. -/
theorem extractLsb'_eq_of_bits {w n : Nat} {x : BitVec w} {k : Nat} {y : BitVec n}
    (h : ∀ j, j < n → x.getLsbD (k + j) = y.getLsbD j) : x.extractLsb' k n = y := by
  apply BitVec.eq_of_getLsbD_eq
  intro j hj
  simp [hj, h j hj]

theorem voltPeArg_fields (sw pe : Lanes Level) (i : LaneIdx) :
    (voltPeArg sw pe).extractLsb' (2 * i.val) 2 = sw.get i ∧
      (voltPeArg sw pe).extractLsb' (8 + 2 * i.val) 2 = pe.get i := by
  have hi : i.val < 4 := i.isLt
  refine ⟨extractLsb'_eq_of_bits ?_, extractLsb'_eq_of_bits ?_⟩ <;> intro j hj
  · rw [voltPeArg_getLsbD _ _ _ (by omega), if_pos (by omega), show (2 * i.val + j) / 2 = i.val by omega,
      show (2 * i.val + j) % 2 = j by omega, sw.getD_toList]
  · rw [voltPeArg_getLsbD _ _ _ (by omega), if_neg (by omega),
      show (8 + 2 * i.val + j - 8) / 2 = i.val by omega, show (8 + 2 * i.val + j) % 2 = j by omega,
      pe.getD_toList]

/-- Taking the argument of `PHY_SET_VOLT_PE` apart gives the levels back (R108). -/
theorem unpackLevels_voltPeArg (sw pe : Lanes Level) :
    unpackLevels (voltPeArg sw pe) 0 = sw ∧ unpackLevels (voltPeArg sw pe) 8 = pe := by
  refine ⟨Lanes.ext_get fun i => ?_, Lanes.ext_get fun i => ?_⟩
  · rw [unpackLevels, Lanes.get_ofFn, Nat.zero_add]; exact (voltPeArg_fields sw pe i).1
  · rw [unpackLevels, Lanes.get_ofFn]; exact (voltPeArg_fields sw pe i).2

theorem cmdWord_fields (b : BitVec 1) (n : LaneCount) (r : RateIdx) (op : BitVec 2) :
    (cmdWord b n r op).extractLsb' 0 2 = op ∧ (cmdWord b n r op).extractLsb' 2 2 = r ∧
      (cmdWord b n r op).extractLsb' 4 3 = n ∧ (cmdWord b n r op).getLsbD 7 = b.getLsbD 0 := by
  refine ⟨extractLsb'_eq_of_bits ?_, extractLsb'_eq_of_bits ?_, extractLsb'_eq_of_bits ?_, ?_⟩
  iterate 3 (intro j hj; rw [cmdWord_getLsbD]; interval_cases j <;> rfl)
  rw [cmdWord_getLsbD]; rfl

theorem resWordOf_fields (v : BitVec 1) (op : BitVec 2) (c p : BitVec 3) (r : RateIdx) (n : LaneCount) :
    (resWordOf v op c p r n).extractLsb' 0 1 = v ∧ (resWordOf v op c p r n).extractLsb' 1 2 = op ∧
      (resWordOf v op c p r n).extractLsb' 3 3 = c ∧ (resWordOf v op c p r n).extractLsb' 6 3 = p ∧
      (resWordOf v op c p r n).extractLsb' 9 2 = r ∧ (resWordOf v op c p r n).extractLsb' 11 3 = n ∧
      (resWordOf v op c p r n).extractLsb' 14 2 = 0 := by
  refine ⟨extractLsb'_eq_of_bits ?_, extractLsb'_eq_of_bits ?_, extractLsb'_eq_of_bits ?_,
    extractLsb'_eq_of_bits ?_, extractLsb'_eq_of_bits ?_, extractLsb'_eq_of_bits ?_,
    extractLsb'_eq_of_bits ?_⟩
  iterate 6 (intro j hj; rw [resWordOf_getLsbD]; interval_cases j <;> rfl)
  intro j hj
  rw [resWordOf_getLsbD]
  interval_cases j <;> simp

theorem phyReqWord_fields (op : PhyOpc) (arg : BitVec 16) :
    (phyReqWord op arg).extractLsb' 0 4 = op.code ∧ (phyReqWord op arg).extractLsb' 4 16 = arg := by
  refine ⟨extractLsb'_eq_of_bits ?_, extractLsb'_eq_of_bits ?_⟩
  · intro j hj; rw [phyReqWord_getLsbD]; simp [hj]
  · intro j hj; rw [phyReqWord_getLsbD]; simp

theorem auxReqWord_fields (rw : BitVec 1) (addr : Addr) (len : BitVec 5) (data : BitVec 128) :
    (auxReqWord rw addr len data).getLsbD 0 = rw.getLsbD 0 ∧
      (auxReqWord rw addr len data).extractLsb' 1 20 = addr ∧
      (auxReqWord rw addr len data).extractLsb' 21 5 = len ∧
      (auxReqWord rw addr len data).extractLsb' 26 128 = data := by
  refine ⟨by rw [auxReqWord_getLsbD]; rfl, extractLsb'_eq_of_bits ?_, extractLsb'_eq_of_bits ?_,
    extractLsb'_eq_of_bits ?_⟩ <;> intro j hj <;> rw [auxReqWord_getLsbD]
  · have h1 : ¬ 1 + j < 1 := by omega
    have h2 : 1 + j < 21 := by omega
    have h3 : 1 + j - 1 = j := by omega
    simp [h1, h2, h3]
  · have h1 : ¬ 21 + j < 1 := by omega
    have h2 : ¬ 21 + j < 21 := by omega
    have h3 : 21 + j < 26 := by omega
    have h4 : 21 + j - 21 = j := by omega
    simp [h1, h2, h3, h4]
  · have h1 : ¬ 26 + j < 1 := by omega
    have h2 : ¬ 26 + j < 21 := by omega
    have h3 : ¬ 26 + j < 26 := by omega
    have h4 : 26 + j - 26 = j := by omega
    simp [h1, h2, h3, h4]

/-- Decoding an AUX request takes it apart into the fields it was made of (R107). -/
theorem decodeAuxReq_word (rw : BitVec 1) (addr : Addr) (len : BitVec 5) (data : BitVec 128) :
    decodeAuxReq (auxReqWord rw addr len data) = auxInstr (rw.getLsbD 0) addr len data := by
  obtain ⟨h1, h2, h3, h4⟩ := auxReqWord_fields rw addr len data
  show auxInstr ((auxReqWord rw addr len data).getLsbD 0) ((auxReqWord rw addr len data).extractLsb' 1 20)
    ((auxReqWord rw addr len data).extractLsb' 21 5) ((auxReqWord rw addr len data).extractLsb' 26 128) = _
  rw [h1, h2, h3, h4]

end Sys2Proof
end

