-- ==== Sys2Proof/Laws/PerInstr.lean ====
section
/-! SUPPORT. A family of one lemma per instruction: the word of an instruction matches its row of
spec/opcode_table.json, for every value of its operands. -/

namespace Sys2Proof.Laws

open Sys2Proof

/-- The eight formats of the table. -/
inductive Format where
  | cmd | st | res | phase | phyReq | auxReq | dpcd102 | dpcd100
  deriving DecidableEq, Repr

/-- The format of a table word. -/
def formatOf : TableWord → Format
  | .cmd _ => .cmd
  | .st _ => .st
  | .res _ => .res
  | .phase _ => .phase
  | .phyReq _ => .phyReq
  | .auxReq _ => .auxReq
  | .dpcd102 _ => .dpcd102
  | .dpcd100 _ => .dpcd100

/-- The bits of a table word, bit 0 the least significant. -/
def bitsOf : TableWord → Nat
  | .cmd w => w.toNat
  | .st w => w.toNat
  | .res w => w.toNat
  | .phase w => w.toNat
  | .phyReq w => w.toNat
  | .auxReq w => w.toNat
  | .dpcd102 w => w.toNat
  | .dpcd100 w => w.toNat

/-- The row of an instruction: its format, and the mask and match of its word. -/
def tableRow : Instr → Format × Nat × Nat
  | .train _ _ => (.cmd, 0x83, 0x01)
  | .checkHealth _ => (.cmd, 0x83, 0x02)
  | .illegalOp0 _ => (.cmd, 0x03, 0x00)
  | .illegalOp3 _ => (.cmd, 0x03, 0x03)
  | .illegalBit7 _ => (.cmd, 0x80, 0x80)
  | .stIdle => (.st, 0xF, 0x0)
  | .stCapNeg => (.st, 0xF, 0x1)
  | .stPhySetup => (.st, 0xF, 0x2)
  | .stClockRecovery => (.st, 0xF, 0x3)
  | .stReduceLinkRate => (.st, 0xF, 0x4)
  | .stEqualizationSetup => (.st, 0xF, 0x5)
  | .stEqualization => (.st, 0xF, 0x6)
  | .stSuccess => (.st, 0xF, 0x7)
  | .stFailed => (.st, 0xF, 0x8)
  | .stLinkUnplugged => (.st, 0xF, 0x9)
  | .stHealthCheck => (.st, 0xF, 0xA)
  | .resOk _ _ _ _ => (.res, 0x0039, 0x0001)
  | .resLinkUnplugged _ _ _ _ => (.res, 0x0039, 0x0009)
  | .resTrainingExhausted _ _ _ _ => (.res, 0x0039, 0x0011)
  | .resCapabilityMismatch _ _ _ _ => (.res, 0x0039, 0x0019)
  | .resAuxTransportError _ _ _ _ => (.res, 0x0039, 0x0021)
  | .resRetrainRequired _ _ _ _ => (.res, 0x0039, 0x0029)
  | .resBadCommand _ _ _ _ => (.res, 0x0039, 0x0031)
  | .phaseNone => (.phase, 0x7, 0x0)
  | .phaseCapNeg => (.phase, 0x7, 0x1)
  | .phasePhySetup => (.phase, 0x7, 0x2)
  | .phaseCr => (.phase, 0x7, 0x3)
  | .phaseEqSetup => (.phase, 0x7, 0x4)
  | .phaseEq => (.phase, 0x7, 0x5)
  | .phaseHealth => (.phase, 0x7, 0x6)
  | .phyReset _ => (.phyReq, 0x0000F, 0x00001)
  | .phySetLinkRate _ => (.phyReq, 0x0000F, 0x00002)
  | .phySetLaneCount _ => (.phyReq, 0x0000F, 0x00003)
  | .phyModeSetting => (.phyReq, 0x0000F, 0x00004)
  | .phyPostInit => (.phyReq, 0x0000F, 0x00005)
  | .phyWaitPllLock => (.phyReq, 0x0000F, 0x00006)
  | .phySetVoltPe _ _ => (.phyReq, 0x0000F, 0x00007)
  | .phySetPattern _ => (.phyReq, 0x0000F, 0x00008)
  | .phySetEnhFrame _ => (.phyReq, 0x0000F, 0x00009)
  | .auxRd _ _ => (.auxReq, 0x1, 0x0)
  | .auxWr _ _ _ => (.auxReq, 0x1, 0x1)
  | .tpsetNormal => (.dpcd102, 0xFF, 0x00)
  | .tpsetTps1 => (.dpcd102, 0xFF, 0x21)
  | .tpsetTps2 => (.dpcd102, 0xFF, 0x22)
  | .tpsetTps3 => (.dpcd102, 0xFF, 0x23)
  | .tpsetTps4 => (.dpcd102, 0xFF, 0x07)
  | .rate162 => (.dpcd100, 0xFF, 0x06)
  | .rate27 => (.dpcd100, 0xFF, 0x0A)
  | .rate54 => (.dpcd100, 0xFF, 0x14)
  | .rate81 => (.dpcd100, 0xFF, 0x1E)

/-- The word of the instruction has its row's format and, under its row's mask, its row's match. -/
def TableMatch.Statement (i : Instr) : Prop :=
  formatOf (encode i) = (tableRow i).1 ∧ bitsOf (encode i) &&& (tableRow i).2.1 = (tableRow i).2.2

/-- The low bits of a word, as a mask takes them. -/
theorem and_mask_low {w : Nat} (x : BitVec w) (k : Nat) :
    x.toNat &&& (2 ^ k - 1) = (x.extractLsb' 0 k).toNat := by
  rw [Nat.and_two_pow_sub_one_eq_mod, BitVec.extractLsb'_toNat, Nat.shiftRight_zero]

/-- The low four bits of a PHY request are its op (R108). -/
theorem phyReqWord_low (op : PhyOpc) (arg : BitVec 16) :
    (phyReqWord op arg).toNat &&& 0xF = op.code.toNat := by
  rw [show (0xF : Nat) = 2 ^ 4 - 1 from rfl, and_mask_low, (phyReqWord_fields op arg).1]

/-- The low bit of an AUX request is `rw` (R107). -/
theorem auxReqWord_low (rw : BitVec 1) (addr : Addr) (len : BitVec 5) (data : BitVec 128) :
    (auxReqWord rw addr len data).toNat &&& 0x1 = rw.toNat := by
  refine (and_mask_low (auxReqWord rw addr len data) 1).trans ?_
  congr 1
  exact extractLsb'_eq_of_bits (fun j hj => by
    have h0 : j = 0 := by omega
    subst h0
    simpa using auxReqWord_getLsbD rw addr len data 0)

/-- `res_valid` and the code of a result word (R92). -/
theorem resWordOf_low (op : BitVec 2) (c p : BitVec 3) (r : RateIdx) (n : LaneCount) :
    (resWordOf 1 op c p r n).toNat &&& 0x0039 = (0#10 ++ c ++ 0#2 ++ 1#1).toNat := by
  have h : resWordOf 1 op c p r n &&& 0x0039#16 = 0#10 ++ c ++ 0#2 ++ 1#1 := by
    apply BitVec.eq_of_getLsbD_eq
    intro j hj
    rw [BitVec.getLsbD_and, resWordOf_getLsbD]
    simp only [BitVec.getLsbD_append]
    interval_cases j <;> simp
  exact congrArg BitVec.toNat h

/-- `TRAIN`. -/
theorem TableMatch.train (rate : RateIdx) (lanes : LaneCount) :
    TableMatch.Statement (.train rate lanes) := by
  revert rate lanes; unfold TableMatch.Statement; decide

/-- `CHECK_HEALTH`. -/
theorem TableMatch.checkHealth (ignored : BitVec 5) :
    TableMatch.Statement (.checkHealth ignored) := by
  revert ignored; unfold TableMatch.Statement; decide

/-- `ILLEGAL_OP0`. -/
theorem TableMatch.illegalOp0 (x : BitVec 5) :
    TableMatch.Statement (.illegalOp0 x) := by
  revert x; unfold TableMatch.Statement; decide

/-- `ILLEGAL_OP3`. -/
theorem TableMatch.illegalOp3 (x : BitVec 5) :
    TableMatch.Statement (.illegalOp3 x) := by
  revert x; unfold TableMatch.Statement; decide

/-- `ILLEGAL_BIT7`. -/
theorem TableMatch.illegalBit7 (x : BitVec 7) :
    TableMatch.Statement (.illegalBit7 x) := by
  revert x; unfold TableMatch.Statement; decide

/-- `ST_Idle`. -/
theorem TableMatch.stIdle :
    TableMatch.Statement (.stIdle) := ⟨rfl, rfl⟩

/-- `ST_CapNeg`. -/
theorem TableMatch.stCapNeg :
    TableMatch.Statement (.stCapNeg) := ⟨rfl, rfl⟩

/-- `ST_PhySetup`. -/
theorem TableMatch.stPhySetup :
    TableMatch.Statement (.stPhySetup) := ⟨rfl, rfl⟩

/-- `ST_ClockRecovery`. -/
theorem TableMatch.stClockRecovery :
    TableMatch.Statement (.stClockRecovery) := ⟨rfl, rfl⟩

/-- `ST_ReduceLinkRate`. -/
theorem TableMatch.stReduceLinkRate :
    TableMatch.Statement (.stReduceLinkRate) := ⟨rfl, rfl⟩

/-- `ST_EqualizationSetup`. -/
theorem TableMatch.stEqualizationSetup :
    TableMatch.Statement (.stEqualizationSetup) := ⟨rfl, rfl⟩

/-- `ST_Equalization`. -/
theorem TableMatch.stEqualization :
    TableMatch.Statement (.stEqualization) := ⟨rfl, rfl⟩

/-- `ST_Success`. -/
theorem TableMatch.stSuccess :
    TableMatch.Statement (.stSuccess) := ⟨rfl, rfl⟩

/-- `ST_Failed`. -/
theorem TableMatch.stFailed :
    TableMatch.Statement (.stFailed) := ⟨rfl, rfl⟩

/-- `ST_LinkUnplugged`. -/
theorem TableMatch.stLinkUnplugged :
    TableMatch.Statement (.stLinkUnplugged) := ⟨rfl, rfl⟩

/-- `ST_HealthCheck`. -/
theorem TableMatch.stHealthCheck :
    TableMatch.Statement (.stHealthCheck) := ⟨rfl, rfl⟩

/-- `RES_OK`. -/
theorem TableMatch.resOk (op : BitVec 2) (phase : Phase) (rate : RateIdx) (lanes : LaneCount) :
    TableMatch.Statement (.resOk op phase rate lanes) := ⟨rfl, resWordOf_low _ _ _ _ _⟩

/-- `RES_LINK_UNPLUGGED`. -/
theorem TableMatch.resLinkUnplugged (op : BitVec 2) (phase : Phase) (rate : RateIdx) (lanes : LaneCount) :
    TableMatch.Statement (.resLinkUnplugged op phase rate lanes) := ⟨rfl, resWordOf_low _ _ _ _ _⟩

/-- `RES_TRAINING_EXHAUSTED`. -/
theorem TableMatch.resTrainingExhausted (op : BitVec 2) (phase : Phase) (rate : RateIdx) (lanes : LaneCount) :
    TableMatch.Statement (.resTrainingExhausted op phase rate lanes) := ⟨rfl, resWordOf_low _ _ _ _ _⟩

/-- `RES_CAPABILITY_MISMATCH`. -/
theorem TableMatch.resCapabilityMismatch (op : BitVec 2) (phase : Phase) (rate : RateIdx) (lanes : LaneCount) :
    TableMatch.Statement (.resCapabilityMismatch op phase rate lanes) := ⟨rfl, resWordOf_low _ _ _ _ _⟩

/-- `RES_AUX_TRANSPORT_ERROR`. -/
theorem TableMatch.resAuxTransportError (op : BitVec 2) (phase : Phase) (rate : RateIdx) (lanes : LaneCount) :
    TableMatch.Statement (.resAuxTransportError op phase rate lanes) := ⟨rfl, resWordOf_low _ _ _ _ _⟩

/-- `RES_RETRAIN_REQUIRED`. -/
theorem TableMatch.resRetrainRequired (op : BitVec 2) (phase : Phase) (rate : RateIdx) (lanes : LaneCount) :
    TableMatch.Statement (.resRetrainRequired op phase rate lanes) := ⟨rfl, resWordOf_low _ _ _ _ _⟩

/-- `RES_BAD_COMMAND`. -/
theorem TableMatch.resBadCommand (op : BitVec 2) (phase : Phase) (rate : RateIdx) (lanes : LaneCount) :
    TableMatch.Statement (.resBadCommand op phase rate lanes) := ⟨rfl, resWordOf_low _ _ _ _ _⟩

/-- `PHASE_NONE`. -/
theorem TableMatch.phaseNone :
    TableMatch.Statement (.phaseNone) := ⟨rfl, rfl⟩

/-- `PHASE_CAPNEG`. -/
theorem TableMatch.phaseCapNeg :
    TableMatch.Statement (.phaseCapNeg) := ⟨rfl, rfl⟩

/-- `PHASE_PHYSETUP`. -/
theorem TableMatch.phasePhySetup :
    TableMatch.Statement (.phasePhySetup) := ⟨rfl, rfl⟩

/-- `PHASE_CR`. -/
theorem TableMatch.phaseCr :
    TableMatch.Statement (.phaseCr) := ⟨rfl, rfl⟩

/-- `PHASE_EQSETUP`. -/
theorem TableMatch.phaseEqSetup :
    TableMatch.Statement (.phaseEqSetup) := ⟨rfl, rfl⟩

/-- `PHASE_EQ`. -/
theorem TableMatch.phaseEq :
    TableMatch.Statement (.phaseEq) := ⟨rfl, rfl⟩

/-- `PHASE_HEALTH`. -/
theorem TableMatch.phaseHealth :
    TableMatch.Statement (.phaseHealth) := ⟨rfl, rfl⟩

/-- `PHY_RESET`. -/
theorem TableMatch.phyReset (assert : Bool) :
    TableMatch.Statement (.phyReset assert) := ⟨rfl, phyReqWord_low _ _⟩

/-- `PHY_SET_LINK_RATE`. -/
theorem TableMatch.phySetLinkRate (rate : RateIdx) :
    TableMatch.Statement (.phySetLinkRate rate) := ⟨rfl, phyReqWord_low _ _⟩

/-- `PHY_SET_LANE_COUNT`. -/
theorem TableMatch.phySetLaneCount (lanes : LaneCount) :
    TableMatch.Statement (.phySetLaneCount lanes) := ⟨rfl, phyReqWord_low _ _⟩

/-- `PHY_MODE_SETTING`. -/
theorem TableMatch.phyModeSetting :
    TableMatch.Statement (.phyModeSetting) := ⟨rfl, phyReqWord_low _ _⟩

/-- `PHY_POST_INIT`. -/
theorem TableMatch.phyPostInit :
    TableMatch.Statement (.phyPostInit) := ⟨rfl, phyReqWord_low _ _⟩

/-- `PHY_WAIT_PLL_LOCK`. -/
theorem TableMatch.phyWaitPllLock :
    TableMatch.Statement (.phyWaitPllLock) := ⟨rfl, phyReqWord_low _ _⟩

/-- `PHY_SET_VOLT_PE`. -/
theorem TableMatch.phySetVoltPe (sw : Lanes Level) (pe : Lanes Level) :
    TableMatch.Statement (.phySetVoltPe sw pe) := ⟨rfl, phyReqWord_low _ _⟩

/-- `PHY_SET_PATTERN`. -/
theorem TableMatch.phySetPattern (pattern : Pattern) :
    TableMatch.Statement (.phySetPattern pattern) := ⟨rfl, phyReqWord_low _ _⟩

/-- `PHY_SET_ENH_FRAME`. -/
theorem TableMatch.phySetEnhFrame (enable : Bool) :
    TableMatch.Statement (.phySetEnhFrame enable) := ⟨rfl, phyReqWord_low _ _⟩

/-- `AUX_RD`. -/
theorem TableMatch.auxRd (addr : Addr) (len : BitVec 5) :
    TableMatch.Statement (.auxRd addr len) := ⟨rfl, auxReqWord_low _ _ _ _⟩

/-- `AUX_WR`. -/
theorem TableMatch.auxWr (addr : Addr) (len : BitVec 5) (data : BitVec 128) :
    TableMatch.Statement (.auxWr addr len data) := ⟨rfl, auxReqWord_low _ _ _ _⟩

/-- `TPSET_NORMAL`. -/
theorem TableMatch.tpsetNormal :
    TableMatch.Statement (.tpsetNormal) := ⟨rfl, rfl⟩

/-- `TPSET_TPS1`. -/
theorem TableMatch.tpsetTps1 :
    TableMatch.Statement (.tpsetTps1) := ⟨rfl, rfl⟩

/-- `TPSET_TPS2`. -/
theorem TableMatch.tpsetTps2 :
    TableMatch.Statement (.tpsetTps2) := ⟨rfl, rfl⟩

/-- `TPSET_TPS3`. -/
theorem TableMatch.tpsetTps3 :
    TableMatch.Statement (.tpsetTps3) := ⟨rfl, rfl⟩

/-- `TPSET_TPS4`. -/
theorem TableMatch.tpsetTps4 :
    TableMatch.Statement (.tpsetTps4) := ⟨rfl, rfl⟩

/-- `RATE_1_62`. -/
theorem TableMatch.rate162 :
    TableMatch.Statement (.rate162) := ⟨rfl, rfl⟩

/-- `RATE_2_7`. -/
theorem TableMatch.rate27 :
    TableMatch.Statement (.rate27) := ⟨rfl, rfl⟩

/-- `RATE_5_4`. -/
theorem TableMatch.rate54 :
    TableMatch.Statement (.rate54) := ⟨rfl, rfl⟩

/-- `RATE_8_1`. -/
theorem TableMatch.rate81 :
    TableMatch.Statement (.rate81) := ⟨rfl, rfl⟩

end Sys2Proof.Laws
end

