-- ==== Sys2Proof/Tests/Slice0.lean ====
section
/-! SUPPORT. Tests. Expected results come from the tables of spec/: 30_encoding.md for the words, the rows
of 95_test_vectors.md (named in each comment) for the steps. -/

namespace Sys2Proof.Tests

open Sys2Proof Sys2Proof.Machine

set_option Elab.async false

/-! ### Helpers -/

/-- The outcome is a next state with a property. -/
def nextIs (o : Out) (p : State → Bool) : Bool :=
  match o with
  | .next t => p t
  | _ => false

/-- An answered attempt with these bytes. -/
def ok (bytes : List Byte) : AuxRsp := ⟨false, packBytes bytes⟩

/-- A failed attempt. -/
def err : AuxRsp := ⟨true, 0⟩

/-- The reset state in a `TRAIN` of rate 3 and 4 lanes, in the FSM state `x`, with these answers. -/
def inState (x : Fsm) (h : Held) : State :=
  { State.reset with st := x, cmd := ⟨1, 3, 4⟩, env := Env.quiet.before h }

/-- The same with session registers. -/
def withSes (ses : Session) (s : State) : State := { s with ses := ses }

/-- A rate and a lane count are fixed, all else 0. -/
def pair (r : RateIdx) (n : LaneCount) : Session := { Session.reset with curRate := r, curLanes := n }

/-- The capability bytes of program P1. -/
def capsP1 : List Byte := [0x12, 0x14, 0xC4, 0, 0, 0, 0, 0, 0, 0, 0, 0, 0, 0, 0, 0]

/-- Four lanes with a swing and its counter, pre-emphasis 0. -/
def lanesOf (sw0 : Level) (rep : BitVec 3) : Lanes Lane :=
  ⟨[⟨sw0, 0, rep, 0⟩, ⟨0, 0, rep, 0⟩, ⟨0, 0, rep, 0⟩, ⟨0, 0, rep, 0⟩], rfl⟩

/-- An AUX transaction answered with these bytes after some failed attempts. -/
def after (fails : Nat) (bytes : List Byte) : Attempts := ⟨List.replicate fails err, ok bytes⟩

/-- An AUX transaction that fails five times. -/
def never : Attempts := ⟨List.replicate 4 err, err⟩

/-! ### Ill-formed instructions are refused -/

theorem test_wf_train_three_lanes : (Instr.train 3 3).wf = false := by decide
theorem test_wf_res_ok_in_cr : (Instr.resOk 1 .cr 2 4).wf = false := by decide
theorem test_wf_res_ok_check_with_rate : (Instr.resOk 2 .health 1 0).wf = false := by decide
theorem test_wf_res_unplugged_in_eqsetup : (Instr.resLinkUnplugged 1 .eqSetup 2 4).wf = false := by decide
theorem test_wf_res_exhausted_no_lanes : (Instr.resTrainingExhausted 1 .cr 0 0).wf = false := by decide
theorem test_wf_res_mismatch_with_rate : (Instr.resCapabilityMismatch 1 .capNeg 1 0).wf = false := by decide
theorem test_wf_res_aux_error_none : (Instr.resAuxTransportError 1 .none 0 0).wf = false := by decide
theorem test_wf_res_retrain_of_train : (Instr.resRetrainRequired 1 .health 0 0).wf = false := by decide
theorem test_wf_res_bad_command_phase : (Instr.resBadCommand 1 .cr 0 0).wf = false := by decide
theorem test_wf_phy_five_lanes : (Instr.phySetLaneCount 5).wf = false := by decide
theorem test_wf_phy_enh_frame_off : (Instr.phySetEnhFrame false).wf = false := by decide
theorem test_wf_aux_read_no_bytes : (Instr.auxRd 0x202 0).wf = false := by decide
theorem test_wf_aux_write_seventeen : (Instr.auxWr 0x103 17 0).wf = false := by decide
theorem test_wf_aux_write_stray_data : (Instr.auxWr 0x102 1 0x121).wf = false := by decide

/-! ### Decoding, one word for every row, written from 30_encoding.md -/

theorem test_decode_train : decode (.cmd 0b01001101) = .ok (.train 3 4) := by decide
theorem test_decode_check_health : decode (.cmd 0b01111110) = .ok (.checkHealth 31) := by decide
theorem test_decode_illegal_op0 : decode (.cmd 0b01001100) = .ok (.illegalOp0 0b10011) := by decide
theorem test_decode_illegal_op3 : decode (.cmd 0b00000011) = .ok (.illegalOp3 0) := by decide
theorem test_decode_illegal_bit7 : decode (.cmd 0b11001101) = .ok (.illegalBit7 0b1001101) := by decide
theorem test_decode_st_Idle : decode (.st 0b0000) = .ok (.stIdle) := by decide
theorem test_decode_st_CapNeg : decode (.st 0b0001) = .ok (.stCapNeg) := by decide
theorem test_decode_st_PhySetup : decode (.st 0b0010) = .ok (.stPhySetup) := by decide
theorem test_decode_st_ClockRecovery : decode (.st 0b0011) = .ok (.stClockRecovery) := by decide
theorem test_decode_st_ReduceLinkRate : decode (.st 0b0100) = .ok (.stReduceLinkRate) := by decide
theorem test_decode_st_EqualizationSetup : decode (.st 0b0101) = .ok (.stEqualizationSetup) := by decide
theorem test_decode_st_Equalization : decode (.st 0b0110) = .ok (.stEqualization) := by decide
theorem test_decode_st_Success : decode (.st 0b0111) = .ok (.stSuccess) := by decide
theorem test_decode_st_Failed : decode (.st 0b1000) = .ok (.stFailed) := by decide
theorem test_decode_st_LinkUnplugged : decode (.st 0b1001) = .ok (.stLinkUnplugged) := by decide
theorem test_decode_st_HealthCheck : decode (.st 0b1010) = .ok (.stHealthCheck) := by decide
theorem test_decode_res_ok : decode (.res 0b0010010101000011) = .ok (.resOk 1 .eq 2 4) := by decide
theorem test_decode_res_link_unplugged : decode (.res 0b0000100011001011) = .ok (.resLinkUnplugged 1 .cr
      0 1) := by decide
theorem test_decode_res_training_exhausted : decode (.res 0b0001001101010011) = .ok
      (.resTrainingExhausted 1 .eq 1 2) := by decide
theorem test_decode_res_capability_mismatch : decode (.res 0b0000000001011011) = .ok
      (.resCapabilityMismatch 1 .capNeg 0 0) := by decide
theorem test_decode_res_aux_transport_error : decode (.res 0b0000000110100101) = .ok
      (.resAuxTransportError 2 .health 0 0) := by decide
theorem test_decode_res_retrain_required : decode (.res 0b0000000110101101) = .ok (.resRetrainRequired 2
      .health 0 0) := by decide
theorem test_decode_res_bad_command : decode (.res 0b0000000000110011) = .ok (.resBadCommand 1 .none 0
      0) := by decide
theorem test_decode_phase_None : decode (.phase 0b000) = .ok (.phaseNone) := by decide
theorem test_decode_phase_CapNeg : decode (.phase 0b001) = .ok (.phaseCapNeg) := by decide
theorem test_decode_phase_PhySetup : decode (.phase 0b010) = .ok (.phasePhySetup) := by decide
theorem test_decode_phase_Cr : decode (.phase 0b011) = .ok (.phaseCr) := by decide
theorem test_decode_phase_EqSetup : decode (.phase 0b100) = .ok (.phaseEqSetup) := by decide
theorem test_decode_phase_Eq : decode (.phase 0b101) = .ok (.phaseEq) := by decide
theorem test_decode_phase_Health : decode (.phase 0b110) = .ok (.phaseHealth) := by decide
theorem test_decode_phy_reset : decode (.phyReq 0b00000000000000010001) = .ok (.phyReset true) := by decide
theorem test_decode_phy_set_link_rate : decode (.phyReq 0b00000000000000100010) = .ok (.phySetLinkRate
      2) := by decide
theorem test_decode_phy_set_lane_count : decode (.phyReq 0b00000000000001000011) = .ok (.phySetLaneCount
      4) := by decide
theorem test_decode_phy_mode_setting : decode (.phyReq 0b00000000000000000100) = .ok (.phyModeSetting) :=
      by decide
theorem test_decode_phy_post_init : decode (.phyReq 0b00000000000000000101) = .ok (.phyPostInit) := by
      decide
theorem test_decode_phy_wait_pll_lock : decode (.phyReq 0b00000000000000000110) = .ok
      (.phyWaitPllLock) := by decide
theorem test_decode_phy_set_volt_pe : decode (.phyReq 0b00101101011110000111) = .ok (.phySetVoltPe ⟨[0,
      2, 3, 1], rfl⟩ ⟨[1, 3, 2, 0], rfl⟩) := by decide
theorem test_decode_phy_set_pattern : decode (.phyReq 0b00000000000000111000) = .ok (.phySetPattern
      .tps3) := by decide
theorem test_decode_phy_set_enh_frame : decode (.phyReq 0b00000000000000011001) = .ok (.phySetEnhFrame
      true) := by decide
theorem test_decode_aux_rd : decode (.auxReq 0b00011000000000010000000100) = .ok (.auxRd 0x202 3) := by
      decide
theorem test_decode_aux_wr : decode (.auxReq 0b100001000001010000010000000000001000000001) = .ok (.auxWr
      0x100 2 0x8414) := by decide
theorem test_decode_tpset_normal : decode (.dpcd102 0b00000000) = .ok (.tpsetNormal) := by decide
theorem test_decode_tpset_tps1 : decode (.dpcd102 0b00100001) = .ok (.tpsetTps1) := by decide
theorem test_decode_tpset_tps2 : decode (.dpcd102 0b00100010) = .ok (.tpsetTps2) := by decide
theorem test_decode_tpset_tps3 : decode (.dpcd102 0b00100011) = .ok (.tpsetTps3) := by decide
theorem test_decode_tpset_tps4 : decode (.dpcd102 0b00000111) = .ok (.tpsetTps4) := by decide
theorem test_decode_rate_1_62 : decode (.dpcd100 0b00000110) = .ok (.rate162) := by decide
theorem test_decode_rate_2_7 : decode (.dpcd100 0b00001010) = .ok (.rate27) := by decide
theorem test_decode_rate_5_4 : decode (.dpcd100 0b00010100) = .ok (.rate54) := by decide
theorem test_decode_rate_8_1 : decode (.dpcd100 0b00011110) = .ok (.rate81) := by decide

/-! ### One step each -/

/-- P1, event 1; 2.1: word 0x4D. -/
theorem test_step_train :
    nextIs (step ({ State.reset with env.cmds := [0x4D] })) (fun t => t.st == .capNeg && t.cmd == ⟨1, 3,
      4⟩ && t.trace == [.cmd 0x4D]) = true := by decide +kernel

/-- 2.1: word 0x3D, `res_word` 0x0033. -/
theorem test_step_train_three_lanes :
    nextIs (step ({ State.reset with env.cmds := [0x3D] })) (fun t => t.st == .idle && t.resWord ==
      0x0033 && t.out.done) = true := by decide +kernel

/-- 2.1: word 0x7E, bits 6:2 ignored. -/
theorem test_step_check_health :
    nextIs (step ({ State.reset with env.cmds := [0x7E] })) (fun t => t.st == .healthCheck && t.ses ==
      Session.reset) = true := by decide +kernel

/-- 2.1: word 0x4C, `res_word` 0x0031. -/
theorem test_step_illegal_op0 :
    nextIs (step ({ State.reset with env.cmds := [0x4C] })) (fun t => t.resWord == 0x0031 &&
      t.trace.length == 2) = true := by decide +kernel

/-- 2.1: word 0x03, `res_word` 0x0037. -/
theorem test_step_illegal_op3 :
    nextIs (step ({ State.reset with env.cmds := [0x03] })) (fun t => t.resWord == 0x0037 && t.st ==
      .idle) = true := by decide +kernel

/-- 2.1: word 0x82, `res_word` 0x0035. -/
theorem test_step_illegal_bit7 :
    nextIs (step ({ State.reset with env.cmds := [0x82] })) (fun t => t.resWord == 0x0035 && t.st ==
      .idle) = true := by decide +kernel

/-- 2.1: a command while busy makes no event and changes no register. -/
theorem test_busy_ignores_command :
    exec (.train 3 4) (inState .success ⟨[], 0, [], 0, []⟩) = .next (inState .success ⟨[], 0, [], 0,
      []⟩) := rfl

/-- R134: no command, nothing happens. -/
theorem test_step_idle :
    nextIs (step (State.reset)) (fun t => t == State.reset) = true := by decide +kernel

/-- 2.3, first row (P1). -/
theorem test_step_capneg :
    nextIs (step (inState .capNeg ⟨[ok capsP1], 0, [], 0, []⟩)) (fun t => t.st == .phySetup && t.ses == {
      pair 2 4 with capTps3 := true, capEfc := true, phase := .capNeg }) = true := by decide +kernel

/-- 2.3, the row 0xFF: the flags are latched, `rd_interval` is 127. -/
theorem test_step_capneg_mismatch :
    nextIs (step (inState .capNeg ⟨[ok (List.replicate 16 0xFF)], 0, [], 0, []⟩)) (fun t => t.st ==
      .failed && t.ses.rdInterval == 127 && t.ses.curLanes == 0) = true := by decide +kernel

/-- 2.4, the answer 0x00, 0, 1 with `cap_efc`: 13 events, the burst `[14 84]`. -/
theorem test_step_physetup_programs :
    nextIs (step (withSes { pair 2 4 with capEfc := true } (inState .phySetup ⟨[ok [], ok []], 9, [⟨0x00,
      0, true⟩], 0, [false]⟩))) (fun t => t.st == .clockRecovery && t.trace.length == 13 &&
      t.trace.contains (.auxWr 0x100 [0x14, 0x84] true)) = true := by decide +kernel

/-- 2.4, the answer 0x14, 4, 1: 5 events. -/
theorem test_step_physetup_skips :
    nextIs (step (withSes (pair 2 4) (inState .phySetup ⟨[ok [], ok []], 1, [⟨0x14, 4, true⟩], 0,
      [false]⟩))) (fun t => t.st == .clockRecovery && t.trace.length == 5) = true := by decide +kernel

/-- 2.5, CR9. -/
theorem test_step_clockrecovery_cr9 :
    nextIs (step ({ withSes (pair 0 1) (inState .clockRecovery ⟨[ok [], ok [0x00, 0x00], ok [0x01,
      0x03]], 1, [], 1, [false]⟩) with
      lanes := lanesOf 1 0 })) (fun t => t.st == .clockRecovery && t.ses.crStallCnt == 1 &&
      t.ses.totalRetryCnt == 1 &&
      t.lanes.toList == [⟨1, 0, 1, 1⟩, ⟨0, 0, 1, 1⟩, ⟨3, 0, 0, 1⟩, ⟨0, 0, 1, 1⟩]) = true := by
      decide +kernel

/-- 2.5, CR10: the stall exit comes first. -/
theorem test_step_clockrecovery_cr10 :
    nextIs (step (withSes { pair 2 4 with crStallCnt := 4, totalRetryCnt := 9 }
      (inState .clockRecovery ⟨[ok [], ok [0x00, 0x00], ok [0x00, 0x00]], 1, [], 1, [false]⟩))) (fun t =>
      t.st == .reduceLinkRate && t.ses.totalRetryCnt == 9 && t.lanes == State.reset.lanes) = true := by
      decide +kernel

/-- 2.6, second row: `phase` still `EQ`. -/
theorem test_step_reducelinkrate :
    nextIs (step (withSes { pair 2 4 with eqRetryCnt := 3, phase := .eq } (inState .reduceLinkRate ⟨[],
      0, [], 0, []⟩))) (fun t => t.st == .phySetup && t.ses == { pair 1 4 with phase := .eq }) = true :=
      by decide +kernel

/-- 2.6, fourth row. -/
theorem test_step_reducelinkrate_bottom :
    nextIs (step (withSes { pair 0 4 with crStallCnt := 4, phase := .cr } (inState .reduceLinkRate ⟨[],
      0, [], 0, []⟩))) (fun t => t.st == .failed && t.failCode == .trainingExhausted &&
      t.ses.crStallCnt == 4) = true := by decide +kernel

/-- 2.7: (`cap_tps4`, `cap_tps3`) = (0, 1) gives 3, byte 0x23. -/
theorem test_step_equalizationsetup :
    nextIs (step (withSes { pair 2 4 with capTps3 := true } (inState .equalizationSetup ⟨[ok []], 1, [],
      0, []⟩))) (fun t => t.st == .equalization && t.trace == [.phy .setPattern 3, .auxWr 0x102 [0x23]
      true]) = true := by decide +kernel

/-- 2.7, EQ5. -/
theorem test_step_equalization_eq5 :
    nextIs (step (withSes (pair 1 2) (inState .equalization ⟨[ok [], ok [0x77, 0x00, 0x81]], 1, [], 1,
      [false]⟩))) (fun t => t.st == .success) = true := by decide +kernel

/-- 2.7, EQ7. -/
theorem test_step_equalization_eq7 :
    nextIs (step (withSes (pair 0 1) (inState .equalization
      ⟨[ok [], ok [0x03, 0x00, 0x01], ok [0x0D, 0x00]], 1, [], 1, [false]⟩))) (fun t => t.st ==
      .equalization && t.ses.eqRetryCnt == 1 && t.lanes.get 0 == ⟨1, 3, 0, 0⟩) = true := by decide +kernel

/-- P1, events 28 to 30: `res_word` 0x2543. -/
theorem test_step_success :
    nextIs (step (withSes { pair 2 4 with phase := .eq } (inState .success ⟨[ok []], 1, [], 0, []⟩)))
      (fun t => t.st == .idle && t.resWord == 0x2543 && t.out.done && t.trace.length == 3) = true := by
      decide +kernel

/-- 2.11: an `AuxFail` inside `Failed` is swallowed; `res_word` 0x1353. -/
theorem test_step_failed :
    nextIs (step (withSes { pair 1 2 with phase := .eq } (inState .failed ⟨[err, err, err, err, err], 0,
      [], 4, []⟩))) (fun t => t.resWord == 0x1353 && t.trace.length == 10 && t.st == .idle) = true := by
      decide +kernel

/-- E6: `res_word` 0x248B, no event but `DONE`. -/
theorem test_step_linkunplugged :
    nextIs (step (withSes { pair 2 4 with phase := .phySetup } (inState .linkUnplugged ⟨[], 0, [], 0,
      []⟩))) (fun t => t.resWord == 0x248B && t.trace.length == 1) = true := by decide +kernel

/-- 2.10, H11: ignored bits do not matter. -/
theorem test_step_healthcheck_h11 :
    nextIs (step ({ inState .healthCheck ⟨[ok [0x14, 0x84], ok [0xFF, 0xFF, 0xFF]], 0, [⟨0x14, 4,
      false⟩], 0, []⟩ with cmd.op := 2 })) (fun t => t.resWord == 0x0185 && t.st == .idle) = true := by
      decide +kernel

/-- 2.10, H10: 3 is no lane count. -/
theorem test_step_healthcheck_h10 :
    nextIs (step ({ inState .healthCheck ⟨[ok [0x14, 0x83], ok [0x77, 0x77, 0x81]], 0, [⟨0x14, 3, true⟩],
      0, []⟩ with cmd.op := 2 })) (fun t => t.resWord == 0x01AD) = true := by decide +kernel

/-- 2.2: `res_word` 0x2743. -/
theorem test_exec_res_ok :
    nextIs (exec (.resOk 1 .eq 3 4) (inState .success ⟨[], 0, [], 0, []⟩)) (fun t => t.resWord ==
      0x2743 && t.st == .idle && t.out.done) = true := by decide +kernel

/-- 2.2: `res_word` 0x248B. -/
theorem test_exec_res_link_unplugged :
    nextIs (exec (.resLinkUnplugged 1 .phySetup 2 4) (inState .success ⟨[], 0, [], 0, []⟩)) (fun t =>
      t.resWord == 0x248B && t.st == .idle && t.out.done) = true := by decide +kernel

/-- 2.2: `res_word` 0x20D3. -/
theorem test_exec_res_training_exhausted :
    nextIs (exec (.resTrainingExhausted 1 .cr 0 4) (inState .success ⟨[], 0, [], 0, []⟩)) (fun t =>
      t.resWord == 0x20D3 && t.st == .idle && t.out.done) = true := by decide +kernel

/-- 2.2: `res_word` 0x005B. -/
theorem test_exec_res_capability_mismatch :
    nextIs (exec (.resCapabilityMismatch 1 .capNeg 0 0) (inState .success ⟨[], 0, [], 0, []⟩)) (fun t =>
      t.resWord == 0x005B && t.st == .idle && t.out.done) = true := by decide +kernel

/-- 2.2: `res_word` 0x0063. -/
theorem test_exec_res_aux_transport_error :
    nextIs (exec (.resAuxTransportError 1 .capNeg 0 0) (inState .success ⟨[], 0, [], 0, []⟩)) (fun t =>
      t.resWord == 0x0063 && t.st == .idle && t.out.done) = true := by decide +kernel

/-- 2.2: `res_word` 0x01AD. -/
theorem test_exec_res_retrain_required :
    nextIs (exec (.resRetrainRequired 2 .health 0 0) (inState .success ⟨[], 0, [], 0, []⟩)) (fun t =>
      t.resWord == 0x01AD && t.st == .idle && t.out.done) = true := by decide +kernel

/-- 2.2: `res_word` 0x0033. -/
theorem test_exec_res_bad_command :
    nextIs (exec (.resBadCommand 1 .none 0 0) (inState .success ⟨[], 0, [], 0, []⟩)) (fun t =>
      t.resWord == 0x0033 && t.st == .idle && t.out.done) = true := by decide +kernel

/-- R94: code 0. -/
theorem test_exec_phase_None :
    nextIs (exec (.phaseNone) (inState .success ⟨[], 0, [], 0, []⟩)) (fun t => t.ses.phase.code == 0 &&
      t.st == .success) = true := by decide +kernel

/-- R94: code 1. -/
theorem test_exec_phase_CapNeg :
    nextIs (exec (.phaseCapNeg) (inState .success ⟨[], 0, [], 0, []⟩)) (fun t => t.ses.phase.code == 1 &&
      t.st == .success) = true := by decide +kernel

/-- R94: code 2. -/
theorem test_exec_phase_PhySetup :
    nextIs (exec (.phasePhySetup) (inState .success ⟨[], 0, [], 0, []⟩)) (fun t => t.ses.phase.code ==
      2 && t.st == .success) = true := by decide +kernel

/-- R94: code 3. -/
theorem test_exec_phase_Cr :
    nextIs (exec (.phaseCr) (inState .success ⟨[], 0, [], 0, []⟩)) (fun t => t.ses.phase.code == 3 &&
      t.st == .success) = true := by decide +kernel

/-- R94: code 4. -/
theorem test_exec_phase_EqSetup :
    nextIs (exec (.phaseEqSetup) (inState .success ⟨[], 0, [], 0, []⟩)) (fun t => t.ses.phase.code ==
      4 && t.st == .success) = true := by decide +kernel

/-- R94: code 5. -/
theorem test_exec_phase_Eq :
    nextIs (exec (.phaseEq) (inState .success ⟨[], 0, [], 0, []⟩)) (fun t => t.ses.phase.code == 5 &&
      t.st == .success) = true := by decide +kernel

/-- R94: code 6. -/
theorem test_exec_phase_Health :
    nextIs (exec (.phaseHealth) (inState .success ⟨[], 0, [], 0, []⟩)) (fun t => t.ses.phase.code == 6 &&
      t.st == .success) = true := by decide +kernel

/-- P1, event 10. -/
theorem test_exec_phy_reset :
    nextIs (exec (.phyReset false) (inState .phySetup ⟨[], 1, [], 0, []⟩)) (fun t => t.trace == [.phy
      .reset 0]) = true := by decide +kernel

/-- P1, event 6. -/
theorem test_exec_phy_set_link_rate :
    nextIs (exec (.phySetLinkRate 2) (inState .phySetup ⟨[], 1, [], 0, []⟩)) (fun t => t.trace == [.phy
      .setLinkRate 2]) = true := by decide +kernel

/-- P1, event 8. -/
theorem test_exec_phy_set_lane_count :
    nextIs (exec (.phySetLaneCount 4) (inState .phySetup ⟨[], 1, [], 0, []⟩)) (fun t => t.trace == [.phy
      .setLaneCount 4]) = true := by decide +kernel

/-- P1, event 7. -/
theorem test_exec_phy_mode_setting :
    nextIs (exec (.phyModeSetting) (inState .phySetup ⟨[], 1, [], 0, []⟩)) (fun t => t.trace == [.phy
      .modeSetting 0]) = true := by decide +kernel

/-- P1, event 11. -/
theorem test_exec_phy_post_init :
    nextIs (exec (.phyPostInit) (inState .phySetup ⟨[], 1, [], 0, []⟩)) (fun t => t.trace == [.phy
      .postInit 0]) = true := by decide +kernel

/-- P1, event 12. -/
theorem test_exec_phy_wait_pll_lock :
    nextIs (exec (.phyWaitPllLock) (inState .phySetup ⟨[], 1, [], 0, []⟩)) (fun t => t.trace == [.phy
      .waitPllLock 0]) = true := by decide +kernel

/-- 2.9. -/
theorem test_exec_phy_set_volt_pe :
    nextIs (exec (.phySetVoltPe ⟨[0, 2, 3, 1], rfl⟩ ⟨[1, 3, 2, 0], rfl⟩) (inState .phySetup ⟨[], 1, [],
      0, []⟩)) (fun t => t.trace == [.phy .setVoltPe 0x2D78]) = true := by decide +kernel

/-- P1, event 21. -/
theorem test_exec_phy_set_pattern :
    nextIs (exec (.phySetPattern .tps3) (inState .phySetup ⟨[], 1, [], 0, []⟩)) (fun t => t.trace ==
      [.phy .setPattern 3]) = true := by decide +kernel

/-- P1, event 9. -/
theorem test_exec_phy_set_enh_frame :
    nextIs (exec (.phySetEnhFrame true) (inState .phySetup ⟨[], 1, [], 0, []⟩)) (fun t => t.trace ==
      [.phy .setEnhFrame 1]) = true := by decide +kernel

/-- R72, R299: without an acknowledgement the block waits with the request outstanding. -/
theorem test_phy_waits :
    nextIs (exec .phyPostInit (inState .phySetup ⟨[], 0, [], 0, []⟩)) (fun t => t.out.phyReq == some
      0x00005 && t.waiting) = true := by decide +kernel

/-- P1, event 20. -/
theorem test_exec_aux_rd :
    nextIs (exec (.auxRd 0x202 2) (inState .clockRecovery ⟨[ok [0x11, 0x11]], 0, [], 0, []⟩)) (fun t =>
      t.trace == [.auxRd 0x202 2 (some [0x11, 0x11])]) = true := by decide +kernel

/-- 2.11: err five times gives 5 AUX events, 4 waits and `AuxFail`. -/
theorem test_exec_aux_rd_fails :
    nextIs (exec (.auxRd 0x000 16) (inState .capNeg ⟨[err, err, err, err, err], 0, [], 4, []⟩)) (fun t =>
      t.trace.length == 9 && t.failCode == .auxTransportError && t.st == .failed) = true := by
      decide +kernel

/-- 2.11: err, ok gives AUX, `WAIT 50000`, AUX. -/
theorem test_exec_aux_wr :
    nextIs (exec (.auxWr 0x100 2 0x8414) (inState .phySetup ⟨[err, ok []], 0, [], 1, []⟩)) (fun t =>
      t.trace ==
      [.auxWr 0x100 [0x14, 0x84] false, .wait 50000, .auxWr 0x100 [0x14, 0x84] true] && t.auxTry == 1) =
      true := by decide +kernel

/-- E9. -/
theorem test_exec_tpset_normal :
    nextIs (exec (.tpsetNormal) (inState .success ⟨[ok []], 0, [], 0, []⟩)) (fun t => t.trace == [.auxWr
      0x102 [0x00] true]) = true := by decide +kernel

/-- E9. -/
theorem test_exec_tpset_tps1 :
    nextIs (exec (.tpsetTps1) (inState .success ⟨[ok []], 0, [], 0, []⟩)) (fun t => t.trace == [.auxWr
      0x102 [0x21] true]) = true := by decide +kernel

/-- E9. -/
theorem test_exec_tpset_tps2 :
    nextIs (exec (.tpsetTps2) (inState .success ⟨[ok []], 0, [], 0, []⟩)) (fun t => t.trace == [.auxWr
      0x102 [0x22] true]) = true := by decide +kernel

/-- E9. -/
theorem test_exec_tpset_tps3 :
    nextIs (exec (.tpsetTps3) (inState .success ⟨[ok []], 0, [], 0, []⟩)) (fun t => t.trace == [.auxWr
      0x102 [0x23] true]) = true := by decide +kernel

/-- E9. -/
theorem test_exec_tpset_tps4 :
    nextIs (exec (.tpsetTps4) (inState .success ⟨[ok []], 0, [], 0, []⟩)) (fun t => t.trace == [.auxWr
      0x102 [0x07] true]) = true := by decide +kernel

/-- 2.4, the bytes of the burst. -/
theorem test_exec_rate_1_62 :
    nextIs (exec (.rate162) (withSes { pair 0 1 with capEfc := false } (inState .success ⟨[ok []], 0, [],
      0, []⟩))) (fun t => t.trace == [.auxWr 0x100 [0x06, 0x01] true]) = true := by decide +kernel

/-- 2.4, the bytes of the burst. -/
theorem test_exec_rate_2_7 :
    nextIs (exec (.rate27) (withSes { pair 0 2 with capEfc := false } (inState .success ⟨[ok []], 0, [],
      0, []⟩))) (fun t => t.trace == [.auxWr 0x100 [0x0A, 0x02] true]) = true := by decide +kernel

/-- 2.4, the bytes of the burst. -/
theorem test_exec_rate_5_4 :
    nextIs (exec (.rate54) (withSes { pair 0 4 with capEfc := true } (inState .success ⟨[ok []], 0, [],
      0, []⟩))) (fun t => t.trace == [.auxWr 0x100 [0x14, 0x84] true]) = true := by decide +kernel

/-- 2.4, the bytes of the burst. -/
theorem test_exec_rate_8_1 :
    nextIs (exec (.rate81) (withSes { pair 0 1 with capEfc := true } (inState .success ⟨[ok []], 0, [],
      0, []⟩))) (fun t => t.trace == [.auxWr 0x100 [0x1E, 0x81] true]) = true := by decide +kernel

/-- 2.9: (1, 2, 1, 0) gives 0x31. -/
theorem test_lane_set_byte :
    (⟨1, 2, 5, 4⟩ : Lane).setByte Config.hw = 0x31 := by decide +kernel

/-- 2.9, R235: `sw` and `pe` (1, 1, 0, 0) give 0x0505. -/
theorem test_program_lanes_argument :
    lanesArg ⟨[⟨1, 1, 0, 0⟩, ⟨1, 1, 0, 0⟩, ⟨0, 0, 0, 0⟩, ⟨0, 0, 0, 0⟩], rfl⟩ = 0x0505 := by decide +kernel

/-- 2.8: `[E4 1B]`. -/
theorem test_parse_adjust :
    parseAdjust [0xE4, 0x1B] = ⟨⟨[0, 2, 3, 1], rfl⟩, ⟨[1, 3, 2, 0], rfl⟩⟩ := by decide +kernel

/-- R63, R70: the second register of each burst stands at the address that R7 gives it. -/
theorem test_bursts_reach_registers :
    Config.hw.addrLaneCountSet = Config.hw.addrLinkBwSet + 1 ∧
      Config.hw.addrLane23Status = Config.hw.addrLane01Status + 1 ∧
      Config.hw.addrAlignStatus = Config.hw.addrLane01Status + 2 := by decide +kernel

/-- 2.12: 127 gives `WAIT 508000`. -/
theorem test_read_interval :
    readIntervalUs Config.hw 127 = 508000 := by decide +kernel

/-- R60, R113: an event as the programs of section 3 print it. -/
theorem test_event_text :
    eventText (.auxRd 0x202 2 (some [0x11, 0x11])) = "AUXRD 0x202 2 -> ok [11 11]" := by decide +kernel

/-- The host's placement: the word is the first instruction after reset. -/
theorem test_fetch_word_command :
    nextIs (step (State.reset.withFetchWord 8 0x4D)) (fun t => t.st == .capNeg) = true := by decide +kernel

/-- The same for a state code. -/
theorem test_fetch_word_state :
    nextIs (step (State.reset.withFetchWord 4 4)) (fun t => t.st == .failed) = true := by decide +kernel

/-! ### The hypotheses of the statements are met

One theorem for each statement that has hypotheses (for each clause, where it has several): a state and
operands that meet all of them. -/

/-- `nextIs` says that there is a next state with the property. -/
theorem nextIs_spec {o : Out} {p : State → Bool} (h : nextIs o p = true) :
    ∃ t, o = .next t ∧ p t = true := by
  cases o with
  | next t => exact ⟨t, rfl, h⟩
  | fault r => cases r
  | refused r => cases h

/-- A well-formed instruction with every field in use. -/
theorem witness_DecodeEncode :
    (Instr.auxWr 0x103 4 0x1B1B1B1B).wf = true := by decide +kernel

/-- A word that decodes. -/
theorem witness_EncodeDecode :
    decode (.res 0x2543) = .ok (.resOk 1 .eq 2 4) := by decide +kernel

/-- Words that decode and words that do not, for each format with words of both kinds; codes at the
      bounds. -/
theorem witness_UnusedCodesRejected :
    (0b1010 : BitVec 4).toNat ≤ 10 ∧ ¬ (0b1011 : BitVec 4).toNat ≤ 10 ∧
      (∃ i, decode (.res 0x2543) = .ok i) ∧ (∃ i, decode (.phyReq 0x00048) = .ok i) ∧
      (∃ i, decode (.auxReq 0x2000404) = .ok i) := ⟨by decide, by decide, ⟨_, rfl⟩, ⟨_, rfl⟩, ⟨_, rfl⟩⟩

/-- Codes 11 and 7, a result that is not valid, op 10, pattern enum 5, AUX length 17, a write with a byte
      too many, 0x20 and 0x07 at the two addresses. -/
theorem test_decode_refuses :
    decode (.st 11) = .error .unusedStateCode ∧ decode (.phase 7) = .error .unusedPhaseCode ∧
      decode (.res 0) = .error .resultNotValid ∧
      decode (.phyReq 0x0000A) = .error .phyOpNeverIssued ∧
      decode (.phyReq 0x00058) = .error .phyArgNeverDriven ∧
      decode (.auxReq 0x2200404) = .error .auxLenNeverDriven ∧
      decode (.auxReq 0x484200205) = .error .auxDataNeverDriven ∧
      decode (.dpcd102 0x20) = .error .notPatternByte ∧
      decode (.dpcd100 0x07) = .error .notRateCode := by decide

/-- A PHY operation without an acknowledgement. -/
theorem witness_RequestWordIsEncoding_phy :
    (Instr.phyReset true).wf = true ∧ (inState .phySetup ⟨[], 0, [], 0, []⟩).held = Held.empty ∧
      encode (.phyReset true) = .phyReq 0x00011 ∧
      (inState .phySetup ⟨[], 0, [], 0, []⟩).env.phyAcks = 0 := by decide +kernel

/-- An AUX read without a response. -/
theorem witness_RequestWordIsEncoding_aux :
    (Instr.auxRd 0x202 2).wf = true ∧ (inState .phySetup ⟨[], 0, [], 0, []⟩).held = Held.empty ∧
      encode (.auxRd 0x202 2) = .auxReq 0x400404 ∧
      (inState .phySetup ⟨[], 0, [], 0, []⟩).env.auxRsps = [] := by decide +kernel

/-- A first attempt that failed, its back-off wait running. -/
theorem witness_RequestWordIsEncoding_retry :
    let e : Env := Env.quiet
    let h : Held := ⟨[err], 0, [], 0, []⟩
    let s : State := inState .capNeg h
    s.held = Held.empty ∧ s.env = e.before h ∧ (err.err = true ∧ e.waitDones = 0) := by decide +kernel

/-- A lane-set write answered at its fourth retry, the read interval running. -/
theorem witness_RequestWordIsEncoding_interval :
    let w : Attempts := after 4 []
    let e : Env := Env.quiet
    let h : Held := ⟨w.responses, 1, [], w.waits, [false]⟩
    let s : State := inState .clockRecovery h
    s.held = Held.empty ∧ s.env = e.before h ∧ w.answered = true ∧ e.waitDones = 0 := by decide +kernel

/-- A command in `Idle`. -/
theorem witness_StepRunsDecoded :
    ({ State.reset with env.cmds := [0x4D] }).env.rstN = true ∧
      decode (fetchWord ({ State.reset with env.cmds := [0x4D] })) = .ok (.train 3 4) := by decide +kernel

/-- A command in `Idle`; a busy state; `Idle` without a command. -/
theorem witness_FetchSelects :
    ({ State.reset with env.cmds := [0x4D] }).st = .idle ∧
      ({ State.reset with env.cmds := [0x4D] }).env.cmds = 0x4D :: [] ∧
      (inState .phySetup ⟨[], 0, [], 0, []⟩).st ≠ .idle ∧
      State.reset.env.cmds = [] := by decide +kernel

/-- Reset asserted in the middle of a command. -/
theorem witness_ResetHolds :
    ({ inState .phySetup ⟨[], 0, [], 0, []⟩ with env.rstN := false } : State).env.rstN = false := by
      decide +kernel

/-- The three lane counts, in `Idle`. -/
theorem witness_TrainStartsSession :
    State.reset.st = .idle ∧ lanesLegal (1 : LaneCount).toNat = true ∧
      lanesLegal (2 : LaneCount).toNat = true ∧ lanesLegal (4 : LaneCount).toNat = true := by decide +kernel

/-- `Idle`. -/
theorem witness_CheckHealthStartsSession :
    State.reset.st = .idle := by decide +kernel

/-- The five other lane counts, in `Idle`. -/
theorem witness_IllegalCommandRefused :
    State.reset.st = .idle ∧ lanesLegal (0 : LaneCount).toNat = false ∧
      lanesLegal (3 : LaneCount).toNat = false ∧ lanesLegal (5 : LaneCount).toNat = false ∧
      lanesLegal (7 : LaneCount).toNat = false := by decide +kernel

/-- A busy state with a command presented. -/
theorem witness_BusyAcceptsNothing :
    let s : State := { inState .clockRecovery ⟨[], 0, [], 0, [true]⟩ with env.cmds := [0x02] }
    (s.st ≠ .idle ∧
      s.env.rstN = true) ∧ ∃ t, step s = .next t ∧
      (t.env.cmds == [0x02]) = true := ⟨by decide +kernel, nextIs_spec (by decide +kernel)⟩

/-- A command presented in `Idle`; the tests of R130 at their boundaries. -/
theorem witness_AcceptanceIsPseudocode :
    (({ State.reset with env.cmds := [0x4D] }).st = .idle ∧
      ({ State.reset with env.cmds := [0x4D] }).env.rstN = true ∧
      ({ State.reset with env.cmds := [0x4D] }).env.cmds = 0x4D :: []) ∧
      (0x4D : BitVec 8).getLsbD 7 = false ∧ (0x4D : BitVec 8).extractLsb' 0 2 = 1 ∧
      (0x4D : BitVec 8).extractLsb' 4 3 = 4 ∧
      (0x82 : BitVec 8).getLsbD 7 = true ∧ (0x00 : BitVec 8).extractLsb' 0 2 = 0 ∧
      (0x03 : BitVec 8).extractLsb' 0 2 = 3 ∧
      (0x3D : BitVec 8).extractLsb' 4 3 = 3 ∧ (0x7E : BitVec 8).extractLsb' 0 2 = 2 := by decide +kernel

/-- The reset state. -/
theorem witness_IdleStays :
    State.reset.st = .idle ∧ State.reset.held = Held.empty ∧ State.reset.waiting = false ∧
      State.reset.env.rstN = true ∧ State.reset.env.cmds = [] := by decide +kernel

/-- The capabilities of P1, after one failed attempt. -/
theorem witness_CapNegStarts :
    let x : Attempts := after 1 capsP1
    let e : Env := Env.quiet
    let h : Held := ⟨x.responses, 0, [], x.waits, []⟩
    let s : State := inState .capNeg h
    s.held = Held.empty ∧ s.env = e.before h ∧ x.answered = true ∧
      rateIndex Config.hw (dataByte x.last.data 1) = some 2 ∧
      lanesLegal (dataByte x.last.data 2 &&& 0x1F).toNat = true := by decide +kernel

/-- 2.3: 0x0C is not a code. -/
theorem witness_CapNegMismatch_rate :
    let x : Attempts := after 0 [0x12, 0x0C, 0x04]
    let e : Env := Env.quiet
    let h : Held := ⟨x.responses, 0, [], x.waits, []⟩
    let s : State := inState .capNeg h
    s.held = Held.empty ∧ s.env = e.before h ∧ x.answered = true ∧
      rateIndex Config.hw (dataByte x.last.data 1) = none := by decide +kernel

/-- 2.3: lanes 0. -/
theorem witness_CapNegMismatch_lanes :
    let x : Attempts := after 4 [0x12, 0x14, 0xC0]
    let e : Env := Env.quiet
    let h : Held := ⟨x.responses, 0, [], x.waits, []⟩
    let s : State := inState .capNeg h
    s.held = Held.empty ∧ s.env = e.before h ∧ x.answered = true ∧
      lanesLegal (dataByte x.last.data 2 &&& 0x1F).toNat = false := by decide +kernel

/-- Five failed attempts. -/
theorem witness_CapNegAuxFails :
    let x : Attempts := never
    let e : Env := Env.quiet
    let h : Held := ⟨x.responses, 0, [], 4, []⟩
    let s : State := inState .capNeg h
    s.held = Held.empty ∧ s.env = e.before h ∧ x.failed = true := by decide +kernel

/-- Five failed attempts. -/
theorem witness_FailedSwallowsAuxFail :
    let x : Attempts := never
    let e : Env := Env.quiet
    let h : Held := ⟨x.responses, 0, [], 4, []⟩
    let s : State := inState .failed h
    s.held = Held.empty ∧ s.env = e.before h ∧ x.failed = true := by decide +kernel

/-- Five failed attempts of the first read. -/
theorem witness_HealthCheckAuxFails_first :
    let b : Attempts := never
    let e : Env := Env.quiet
    let h : Held := ⟨b.responses, 0, [], 4, []⟩
    let s : State := inState .healthCheck h
    s.held = Held.empty ∧ s.env = e.before h ∧ b.failed = true := by decide +kernel

/-- The first read is answered at its second attempt, the second never. -/
theorem witness_HealthCheckAuxFails_second :
    let b : Attempts := after 1 [0x14, 0x84]
    let c : Attempts := never
    let e : Env := Env.quiet
    let h : Held := ⟨b.responses ++ c.responses, 0, [], b.waits + 4, []⟩
    let s : State := inState .healthCheck h
    s.held = Held.empty ∧ s.env = e.before h ∧ b.answered = true ∧ c.failed = true := by decide +kernel

/-- P1: the PHY is at code 0x00, and enhanced framing is on: 8 operations, then the pattern. -/
theorem witness_PhySetupProgramsLink_differs :
    let x : Attempts := after 0 []
    let y : Attempts := after 4 []
    let p : PhySample := ⟨0x00, 0, true⟩
    let h : Held := ⟨x.responses ++ y.responses, 9, [p], x.waits + y.waits, [false]⟩
    let s : State := withSes { pair 2 4 with capEfc := true } (inState .phySetup h)
    s.held = Held.empty ∧ s.env = Env.quiet.before h ∧ x.answered = true ∧ y.answered = true ∧
      9 = (phySetupBlock s p).length + 1 := by decide +kernel

/-- 2.4: the answer 0x14, 4, 1. -/
theorem witness_PhySetupProgramsLink_same :
    let x : Attempts := after 2 []
    let y : Attempts := after 0 []
    let p : PhySample := ⟨0x14, 4, true⟩
    let h : Held := ⟨x.responses ++ y.responses, 1, [p], x.waits + y.waits, [false]⟩
    let s : State := withSes (pair 2 4) (inState .phySetup h)
    s.held = Held.empty ∧ s.env = Env.quiet.before h ∧ x.answered = true ∧ y.answered = true ∧
      1 = (phySetupBlock s p).length + 1 := by decide +kernel

/-- 2.5, CR1. -/
theorem witness_ClockRecoveryLeaves_done :
    let w : Attempts := after 1 []
    let b : Attempts := after 4 [0x11, 0x00]
    let e : Env := Env.quiet
    let h : Held := ⟨w.responses ++ b.responses, 1, [], w.waits + 1 + b.waits, [false]⟩
    let s : State := withSes (pair 2 2) (inState .clockRecovery h)
    s.held = Held.empty ∧ s.env = e.before h ∧ w.answered = true ∧ b.answered = true ∧
      allSet (parseLaneStatus2 (b.bytes 2)).cr s.ses.curLanes.toNat = true := by decide +kernel

/-- 2.5, CR6. -/
theorem witness_ClockRecoveryLeaves_max :
    let w : Attempts := after 1 []
    let b : Attempts := after 0 [0x01, 0x00]
    let e : Env := Env.quiet
    let h : Held := ⟨w.responses ++ b.responses, 1, [], w.waits + 1 + b.waits, [false]⟩
    let s : State := { withSes (pair 2 2) (inState .clockRecovery h) with lanes := lanesOf 0 5 }
    s.held = Held.empty ∧ s.env = e.before h ∧ w.answered = true ∧ b.answered = true ∧
      allSet (parseLaneStatus2 (b.bytes 2)).cr s.ses.curLanes.toNat = false ∧
      allMaxSwing Config.hw s.lanes s.ses.curLanes.toNat = true := by decide +kernel

/-- 2.5, CR3: at the stall bound. -/
theorem witness_ClockRecoveryAdjusts_stall :
    let w : Attempts := after 1 []
    let b : Attempts := after 0 [0x00, 0x00]
    let a : Attempts := after 0 [0x00, 0x00]
    let e : Env := Env.quiet
    let h : Held := ⟨w.responses ++ b.responses ++ a.responses, 1, [],
      w.waits + 1 + b.waits + a.waits, [false]⟩
    let s : State := withSes { pair 2 4 with crStallCnt := 4, totalRetryCnt := 4 } (inState
      .clockRecovery h)
    s.held = Held.empty ∧ s.env = e.before h ∧ w.answered = true ∧ b.answered = true ∧ a.answered = true ∧
      allSet (parseLaneStatus2 (b.bytes 2)).cr s.ses.curLanes.toNat = false ∧
      allMaxSwing Config.hw s.lanes s.ses.curLanes.toNat = false ∧
      sameAsRequested (parseAdjust (a.bytes 2)) s.lanes s.ses.curLanes.toNat = true ∧
      s.ses.crStallCnt = 4 := by decide +kernel

/-- 2.5, CR2: the stall counter counts. -/
theorem witness_ClockRecoveryAdjusts_count :
    let w : Attempts := after 1 []
    let b : Attempts := after 4 [0x11, 0x01]
    let a : Attempts := after 0 [0x00, 0x00]
    let e : Env := Env.quiet
    let h : Held := ⟨w.responses ++ b.responses ++ a.responses, 1, [],
      w.waits + 1 + b.waits + a.waits, [false]⟩
    let s : State := withSes (pair 2 4) (inState .clockRecovery h)
    s.held = Held.empty ∧ s.env = e.before h ∧ w.answered = true ∧ b.answered = true ∧ a.answered = true ∧
      allSet (parseLaneStatus2 (b.bytes 2)).cr s.ses.curLanes.toNat = false ∧
      allMaxSwing Config.hw s.lanes s.ses.curLanes.toNat = false ∧
      sameAsRequested (parseAdjust (a.bytes 2)) s.lanes s.ses.curLanes.toNat = true ∧ s.ses.crStallCnt ≠ 4 ∧
      ¬ 10 ≤ (s.ses.totalRetryCnt + 1).toNat := by decide +kernel

/-- 2.5, CR5: a new request at the ceiling. -/
theorem witness_ClockRecoveryAdjusts_ceiling :
    let w : Attempts := after 1 []
    let b : Attempts := after 0 [0x00, 0x00]
    let a : Attempts := after 0 [0x02, 0x00]
    let e : Env := Env.quiet
    let h : Held := ⟨w.responses ++ b.responses ++ a.responses, 1, [],
      w.waits + 1 + b.waits + a.waits, [false]⟩
    let s : State := { withSes { pair 0 1 with totalRetryCnt := 9 } (inState .clockRecovery h) with
      lanes := lanesOf 1 0 }
    s.held = Held.empty ∧ s.env = e.before h ∧ w.answered = true ∧ b.answered = true ∧ a.answered = true ∧
      allSet (parseLaneStatus2 (b.bytes 2)).cr s.ses.curLanes.toNat = false ∧
      allMaxSwing Config.hw s.lanes s.ses.curLanes.toNat = false ∧
      sameAsRequested (parseAdjust (a.bytes 2)) s.lanes s.ses.curLanes.toNat = false ∧
      10 ≤ (s.ses.totalRetryCnt + 1).toNat := by decide +kernel

/-- The lowest rate that steps down. -/
theorem witness_LadderStepsDown :
    (withSes (pair 1 4) (inState .reduceLinkRate ⟨[], 0, [], 0, []⟩)).held = Held.empty ∧
      (withSes (pair 1 4) (inState .reduceLinkRate ⟨[], 0, [], 0, []⟩)).ses.curRate ≠ 0 := by decide +kernel

/-- The lowest rate. -/
theorem witness_LadderBottomExhausts :
    (withSes (pair 0 4) (inState .reduceLinkRate ⟨[], 0, [], 0, []⟩)).held = Held.empty ∧
      (withSes (pair 0 4) (inState .reduceLinkRate ⟨[], 0, [], 0, []⟩)).ses.curRate = 0 := by decide +kernel

/-- 2.7, `SelectEqPattern`. -/
theorem witness_EqSetupSelectsRichest_tps4 :
    let w : Attempts := after 1 []
    let e : Env := Env.quiet
    let h : Held := ⟨w.responses, 1, [], w.waits, []⟩
    let s : State := withSes { pair 2 4 with capTps4 := true, capTps3 := true } (inState
      .equalizationSetup h)
    s.held = Held.empty ∧ s.env = e.before h ∧ w.answered = true ∧
      s.ses.capTps4 = true ∧ s.ses.capTps3 = true := by decide +kernel

/-- 2.7, `SelectEqPattern`. -/
theorem witness_EqSetupSelectsRichest_tps3 :
    let w : Attempts := after 1 []
    let e : Env := Env.quiet
    let h : Held := ⟨w.responses, 1, [], w.waits, []⟩
    let s : State := withSes { pair 2 4 with capTps3 := true } (inState .equalizationSetup h)
    s.held = Held.empty ∧ s.env = e.before h ∧ w.answered = true ∧
      s.ses.capTps4 = false ∧ s.ses.capTps3 = true := by decide +kernel

/-- 2.7, `SelectEqPattern`. -/
theorem witness_EqSetupSelectsRichest_tps2 :
    let w : Attempts := after 1 []
    let e : Env := Env.quiet
    let h : Held := ⟨w.responses, 1, [], w.waits, []⟩
    let s : State := withSes (pair 2 4) (inState .equalizationSetup h)
    s.held = Held.empty ∧ s.env = e.before h ∧ w.answered = true ∧
      s.ses.capTps4 = false ∧ s.ses.capTps3 = false := by decide +kernel

/-- 2.7, EQ10: CR lost with the retries used up. -/
theorem witness_EqualizationLeaves_lost :
    let w : Attempts := after 1 []
    let b : Attempts := after 0 [0x07, 0x00, 0x01]
    let e : Env := Env.quiet
    let h : Held := ⟨w.responses ++ b.responses, 1, [], w.waits + 1 + b.waits, [false]⟩
    let s : State := withSes { pair 1 2 with eqRetryCnt := 5 } (inState .equalization h)
    s.held = Held.empty ∧ s.env = e.before h ∧ w.answered = true ∧ b.answered = true ∧
      allSet (parseStatus3 Config.hw (b.bytes 3)).lanes.cr s.ses.curLanes.toNat = false := by decide +kernel

/-- 2.7, EQ9: success in the sixth round. -/
theorem witness_EqualizationLeaves_success :
    let w : Attempts := after 1 []
    let b : Attempts := after 0 [0x77, 0x00, 0x01]
    let e : Env := Env.quiet
    let h : Held := ⟨w.responses ++ b.responses, 1, [], w.waits + 1 + b.waits, [false]⟩
    let s : State := withSes { pair 1 2 with eqRetryCnt := 5 } (inState .equalization h)
    s.held = Held.empty ∧ s.env = e.before h ∧ w.answered = true ∧ b.answered = true ∧
      allSet (parseStatus3 Config.hw (b.bytes 3)).lanes.cr s.ses.curLanes.toNat = true ∧
      (allSet (parseStatus3 Config.hw (b.bytes 3)).lanes.eq s.ses.curLanes.toNat = true ∧
      allSet (parseStatus3 Config.hw (b.bytes 3)).lanes.sl s.ses.curLanes.toNat = true ∧
      (parseStatus3 Config.hw (b.bytes 3)).align = true) := by decide +kernel

/-- 2.7, EQ8. -/
theorem witness_EqualizationLeaves_exhausted :
    let w : Attempts := after 1 []
    let b : Attempts := after 0 [0x33, 0x00, 0x01]
    let e : Env := Env.quiet
    let h : Held := ⟨w.responses ++ b.responses, 1, [], w.waits + 1 + b.waits, [false]⟩
    let s : State := withSes { pair 1 2 with eqRetryCnt := 5 } (inState .equalization h)
    s.held = Held.empty ∧ s.env = e.before h ∧ w.answered = true ∧ b.answered = true ∧
      allSet (parseStatus3 Config.hw (b.bytes 3)).lanes.cr s.ses.curLanes.toNat = true ∧
      ¬ (allSet (parseStatus3 Config.hw (b.bytes 3)).lanes.eq s.ses.curLanes.toNat = true ∧
      allSet (parseStatus3 Config.hw (b.bytes 3)).lanes.sl s.ses.curLanes.toNat = true ∧
      (parseStatus3 Config.hw (b.bytes 3)).align = true) ∧
      5 ≤ s.ses.eqRetryCnt.toNat := by decide +kernel

/-- 2.7, EQ2, on the last retry. -/
theorem witness_EqualizationRetries :
    let w : Attempts := after 1 []
    let b : Attempts := after 0 [0x77, 0x77, 0x00]
    let a : Attempts := after 0 [0x00, 0x00]
    let e : Env := Env.quiet
    let h : Held := ⟨w.responses ++ b.responses ++ a.responses, 1, [],
      w.waits + 1 + b.waits + a.waits, [false]⟩
    let s : State := withSes { pair 2 4 with eqRetryCnt := 4 } (inState .equalization h)
    s.held = Held.empty ∧ s.env = e.before h ∧ w.answered = true ∧ b.answered = true ∧ a.answered = true ∧
      allSet (parseStatus3 Config.hw (b.bytes 3)).lanes.cr s.ses.curLanes.toNat = true ∧
      ¬ (allSet (parseStatus3 Config.hw (b.bytes 3)).lanes.eq s.ses.curLanes.toNat = true ∧
      allSet (parseStatus3 Config.hw (b.bytes 3)).lanes.sl s.ses.curLanes.toNat = true ∧
      (parseStatus3 Config.hw (b.bytes 3)).align = true) ∧
      s.ses.eqRetryCnt.toNat < 5 := by decide +kernel

/-- P1, events 28 to 30, with failed attempts. -/
theorem witness_SuccessCompletes :
    let w : Attempts := after 4 []
    let e : Env := Env.quiet
    let h : Held := ⟨w.responses, 1, [], w.waits, []⟩
    let s : State := inState .success h
    s.held = Held.empty ∧ s.env = e.before h ∧ w.answered = true := by decide +kernel

/-- The courtesy write answered. -/
theorem witness_FailedCompletes_trainingExhausted :
    let w : Attempts := after 1 []
    let e : Env := Env.quiet
    let h : Held := ⟨w.responses, 0, [], w.waits, []⟩
    let s : State := { inState .failed h with failCode := .trainingExhausted }
    s.held = Held.empty ∧ s.env = e.before h ∧ w.answered = true ∧
      s.failCode = .trainingExhausted := by decide +kernel

/-- The courtesy write answered. -/
theorem witness_FailedCompletes_capabilityMismatch :
    let w : Attempts := after 1 []
    let e : Env := Env.quiet
    let h : Held := ⟨w.responses, 0, [], w.waits, []⟩
    let s : State := { inState .failed h with failCode := .capabilityMismatch }
    s.held = Held.empty ∧ s.env = e.before h ∧ w.answered = true ∧
      s.failCode = .capabilityMismatch := by decide +kernel

/-- The courtesy write answered. -/
theorem witness_FailedCompletes_auxTransportError :
    let w : Attempts := after 1 []
    let e : Env := Env.quiet
    let h : Held := ⟨w.responses, 0, [], w.waits, []⟩
    let s : State := { inState .failed h with failCode := .auxTransportError }
    s.held = Held.empty ∧ s.env = e.before h ∧ w.answered = true ∧
      s.failCode = .auxTransportError := by decide +kernel

/-- One write answered at its fifth attempt. -/
theorem witness_PatternRowsWrite_RateRowsWrite :
    let w : Attempts := after 4 []
    let e : Env := Env.quiet
    let h : Held := ⟨w.responses, 0, [], w.waits, []⟩
    let s : State := inState .phySetup h
    s.held = Held.empty ∧ s.env = e.before h ∧ w.answered = true := by decide +kernel

/-- No answer held. -/
theorem witness_LinkUnpluggedCompletes :
    (inState .linkUnplugged ⟨[], 0, [], 0, []⟩).held = Held.empty := by decide +kernel

/-- H1, with failed attempts. -/
theorem witness_HealthCheckCompletes :
    let b : Attempts := after 1 [0x14, 0x84]
    let c : Attempts := after 4 [0x77, 0x77, 0x81]
    let e : Env := Env.quiet
    let h : Held := ⟨b.responses ++ c.responses, 0, [⟨0x14, 4, true⟩], b.waits + c.waits, []⟩
    let s : State := inState .healthCheck h
    s.held = Held.empty ∧ s.env = e.before h ∧ b.answered = true ∧ c.answered = true := by decide +kernel

/-- H1. -/
theorem witness_HealthVerdictRule_healthy :
    ((0x14 : Byte) = 0x06 ∨ (0x14 : Byte) = 0x0A ∨ (0x14 : Byte) = 0x14 ∨ (0x14 : Byte) = 0x1E) ∧
      ((0x84 : Byte) &&& 0x1F).toNat = 4 ∧ (0x14 : Byte) = (⟨0x14, 4, true⟩ : PhySample).rateCode ∧
      ((0x84 : Byte) &&& 0x1F).toNat = (⟨0x14, 4, true⟩ : PhySample).lanes.toNat ∧
      (0x81 : Byte).getLsbD 7 = true ∧
      allSet (parseLaneStatus2 [0x77, 0x77]).cr 4 = true ∧
      allSet (parseLaneStatus2 [0x77, 0x77]).eq 4 = true ∧
      allSet (parseLaneStatus2 [0x77, 0x77]).sl 4 = true ∧
      (0x81 : Byte).getLsbD 0 = true := by decide +kernel

/-- H4: the sink's rate is not the PHY's; H10: 3 is no lane count. -/
theorem witness_HealthVerdictRule_not :
    ¬ (0x0A : Byte) = (⟨0x14, 4, true⟩ : PhySample).rateCode ∧
      ¬ (((0x83 : Byte) &&& 0x1F).toNat = 1 ∨ ((0x83 : Byte) &&& 0x1F).toNat = 2 ∨ ((0x83 : Byte) &&&
      0x1F).toNat = 4) := by decide +kernel

/-- A poll that reads 1. -/
theorem witness_UnplugAbandons :
    let h : Held := ⟨[], 0, [], 0, [true]⟩
    let s : State := inState .clockRecovery h
    s.held = Held.empty ∧ s.env = Env.quiet.before h := by decide +kernel

/-- One acknowledgement to come. -/
theorem witness_PhyRowsAcknowledged :
    let h : Held := ⟨[], 1, [], 0, []⟩
    let s : State := inState .phySetup h
    s.held = Held.empty ∧ s.env = Env.quiet.before h := by decide +kernel

/-- Four failed attempts, the most that a fifth cures. -/
theorem witness_AuxReadRetries_AuxWriteRetries :
    let x : Attempts := after 4 [0x11, 0x11]
    let e : Env := Env.quiet
    let h : Held := ⟨x.responses, 0, [], x.waits, []⟩
    let s : State := inState .clockRecovery h
    s.held = Held.empty ∧ s.env = e.before h ∧ x.answered = true := by decide +kernel

/-- Five failed attempts, in a `TRAIN` and in a check. -/
theorem witness_AuxFailAfterFive_row :
    let x : Attempts := never
    let e : Env := Env.quiet
    let h : Held := ⟨x.responses, 0, [], 4, []⟩
    let s : State := inState .phySetup h
    s.held = Held.empty ∧ s.env = e.before h ∧ x.failed = true ∧
      (inState .healthCheck h).st = .healthCheck := by decide +kernel

/-- The burst fails after a block of 8 operations. -/
theorem witness_AuxFailAfterFive_phySetup_first :
    let x : Attempts := never
    let p : PhySample := ⟨0x00, 0, true⟩
    let h : Held := ⟨x.responses, 8, [p], 4, [false]⟩
    let s : State := withSes { pair 2 4 with capEfc := true } (inState .phySetup h)
    s.held = Held.empty ∧ s.env = Env.quiet.before h ∧ x.failed = true ∧
      8 = (phySetupBlock s p).length := by decide +kernel

/-- The burst is answered, the pattern write fails. -/
theorem witness_AuxFailAfterFive_phySetup_second :
    let x : Attempts := after 2 []
    let y : Attempts := never
    let p : PhySample := ⟨0x14, 4, true⟩
    let h : Held := ⟨x.responses ++ y.responses, 1, [p], x.waits + 4, [false]⟩
    let s : State := withSes (pair 2 4) (inState .phySetup h)
    s.held = Held.empty ∧ s.env = Env.quiet.before h ∧ x.answered = true ∧ y.failed = true ∧
      1 = (phySetupBlock s p).length + 1 := by decide +kernel

/-- The lane-set write fails. -/
theorem witness_AuxFailAfterFive_round_write :
    let w : Attempts := never
    let e : Env := Env.quiet
    let h : Held := ⟨w.responses, 1, [], 4, [false]⟩
    let s : State := inState .clockRecovery h
    s.held = Held.empty ∧ s.env = e.before h ∧ w.failed = true := by decide +kernel

/-- The status read fails. -/
theorem witness_AuxFailAfterFive_round_status :
    let w : Attempts := after 1 []
    let b : Attempts := never
    let e : Env := Env.quiet
    let h : Held := ⟨w.responses ++ b.responses, 1, [], w.waits + 1 + 4, [false]⟩
    let s : State := inState .equalization h
    s.held = Held.empty ∧ s.env = e.before h ∧ w.answered = true ∧ b.failed = true := by decide +kernel

/-- The adjust read of a `ClockRecovery` round fails. -/
theorem witness_AuxFailAfterFive_adjust_cr :
    let w : Attempts := after 0 []
    let b : Attempts := after 4 [0x00, 0x00]
    let a : Attempts := never
    let e : Env := Env.quiet
    let h : Held := ⟨w.responses ++ b.responses ++ a.responses, 1, [],
      w.waits + 1 + b.waits + 4, [false]⟩
    let s : State := withSes (pair 2 4) (inState .clockRecovery h)
    s.held = Held.empty ∧ s.env = e.before h ∧ w.answered = true ∧ b.answered = true ∧ a.failed = true ∧
      allSet (parseLaneStatus2 (b.bytes 2)).cr s.ses.curLanes.toNat = false ∧
      allMaxSwing Config.hw s.lanes s.ses.curLanes.toNat = false := by decide +kernel

/-- The adjust read of the last `Equalization` retry fails. -/
theorem witness_AuxFailAfterFive_adjust_eq :
    let w : Attempts := after 0 []
    let b : Attempts := after 4 [0x77, 0x77, 0x00]
    let a : Attempts := never
    let e : Env := Env.quiet
    let h : Held := ⟨w.responses ++ b.responses ++ a.responses, 1, [],
      w.waits + 1 + b.waits + 4, [false]⟩
    let s : State := withSes { pair 2 4 with eqRetryCnt := 4 } (inState .equalization h)
    s.held = Held.empty ∧ s.env = e.before h ∧ w.answered = true ∧ b.answered = true ∧ a.failed = true ∧
      allSet (parseStatus3 Config.hw (b.bytes 3)).lanes.cr s.ses.curLanes.toNat = true ∧
      ¬ (allSet (parseStatus3 Config.hw (b.bytes 3)).lanes.eq s.ses.curLanes.toNat = true ∧
      allSet (parseStatus3 Config.hw (b.bytes 3)).lanes.sl s.ses.curLanes.toNat = true ∧
      (parseStatus3 Config.hw (b.bytes 3)).align = true) ∧
      s.ses.eqRetryCnt.toNat < 5 := by decide +kernel

/-- The one write of `Success` fails. -/
theorem witness_AuxFailAfterFive_write :
    let w : Attempts := never
    let e : Env := Env.quiet
    let h : Held := ⟨w.responses, 1, [], 4, []⟩
    let s : State := inState .success h
    s.held = Held.empty ∧ s.env = e.before h ∧ w.failed = true := by decide +kernel

/-- 2.3: bit 5 of `c[2]`, bits 6:0 of `c[3]`, bit 7 of `c[14]`. -/
theorem witness_ParserIgnoresBits :
    (capsP1.set 2 0xE4).getD 1 0 = capsP1.getD 1 0 ∧
      (capsP1.set 2 0xE4).getD 2 0 &&& 0xDF = capsP1.getD 2 0 &&& 0xDF ∧
      (capsP1.set 3 0x7F).getD 3 0 &&& 0x80 = capsP1.getD 3 0 &&& 0x80 ∧
      (capsP1.set 14 0x80).getD 14 0 &&& 0x7F = capsP1.getD 14 0 &&& 0x7F := by decide +kernel

/-- A round of `ClockRecovery` that goes on, from a state of the invariant. -/
theorem witness_StepKeepsInvariant_EventsAreLegal_RankDecreases :
    let s : State := withSes { pair 0 1 with phase := .phySetup } { inState .clockRecovery ⟨[ok [], ok
      [0x00, 0x00], ok [0x02, 0x00]], 1, [], 1, [false]⟩ with cmd := ⟨1, 0, 1⟩ }
    (s.inv = true ∧ s.env.rstN = true ∧ s.st ≠ .idle) ∧ ∃ t, step s = .next t ∧
      (t.st == .clockRecovery) = true := ⟨by decide +kernel, nextIs_spec (by decide +kernel)⟩

/-- The same, without the invariant. -/
theorem witness_TransitionTable_RegisterWriters_OnlyDoneWritesResult :
    let s : State := withSes { pair 0 1 with phase := .phySetup } { inState .clockRecovery ⟨[ok [], ok
      [0x00, 0x00], ok [0x02, 0x00]], 1, [], 1, [false]⟩ with cmd := ⟨1, 0, 1⟩ }
    (s.env.rstN = true ∧ s.st ≠ .idle) ∧ ∃ t, step s = .next t ∧
      (t.trace.length == 6) = true := ⟨by decide +kernel, nextIs_spec (by decide +kernel)⟩

/-- An action that an exception ends. -/
theorem witness_RegisterWriters_exception :
    nextIs (step (inState .clockRecovery ⟨[], 0, [], 0, [true]⟩)) (fun t => t.st == .linkUnplugged) =
      true := by decide +kernel

/-- An action that enters `Failed`. -/
theorem witness_RegisterWriters_failed :
    nextIs (step (inState .reduceLinkRate ⟨[], 0, [], 0, []⟩)) (fun t => t.st == .failed && t.failCode ==
      .trainingExhausted) = true := by decide +kernel

/-- A step that completes a command. -/
theorem witness_OnlyDoneWritesResult_done :
    nextIs (step ({ State.reset with env.cmds := [0x00] })) (fun t => t.out.done) = true := by
      decide +kernel

/-- A poll point that reads 1. -/
theorem witness_PollPoints_polled :
    let s : State := inState .clockRecovery ⟨[], 0, [], 0, [true]⟩
    (s.env.rstN = true ∧ s.held = Held.empty ∧ s.st ∈ pollStates) ∧ ∃ t, step s = .next t ∧
      (t.trace == [.poll true]) = true := ⟨by decide +kernel, nextIs_spec (by decide +kernel)⟩

/-- A state without a poll point. -/
theorem witness_PollPoints_none :
    let s : State := inState .healthCheck ⟨[], 0, [], 0, [true]⟩
    (s.env.rstN = true ∧ s.held = Held.empty ∧ s.st ∉ pollStates) ∧ ∃ t, step s = .next t ∧
      (t.trace == []) = true := ⟨by decide +kernel, nextIs_spec (by decide +kernel)⟩

/-- A round that waits for the answer to its lane-set write. -/
theorem witness_WaitingIsUnanswered_WaitingIsTransparent :
    let s : State := withSes { pair 0 1 with phase := .phySetup } { inState .clockRecovery ⟨[], 1, [], 0,
      [false]⟩ with cmd := ⟨1, 0, 1⟩ }
    (s.inv = true ∧ s.env.rstN = true ∧ s.st ≠ .idle ∧ s.held = Held.empty) ∧ ∃ t, step s = .next t ∧
      (t.waiting && t.out.auxReq.isSome) = true := ⟨by decide +kernel, nextIs_spec (by decide +kernel)⟩

/-- Two idle blocks, one after a failed command; their environments have H1's answers, with failed
      attempts. -/
theorem witness_HealthCheckIsReadOnly :
    let b : Attempts := after 1 [0x14, 0x84]
    let c : Attempts := after 4 [0x77, 0x77, 0x81]
    let h : Held := ⟨b.responses ++ c.responses, 0, [⟨0x14, 4, true⟩], b.waits + c.waits, []⟩
    let s : State := { State.reset with env := Env.quiet.before h }
    let u : State := { s with failCode := .auxTransportError, lanes := lanesOf 2 3 }
    b.answered = true ∧ c.answered = true ∧ s.st = .idle ∧ u.st = .idle ∧ s.held = Held.empty ∧
      u.held = Held.empty ∧
      s.env = Env.quiet.before h ∧ u.env = Env.quiet.before h ∧
      nextIs (exec (.checkHealth 0) s) (fun a => nextIs (exec .stHealthCheck a) (fun _ => true)) = true ∧
      nextIs (exec (.checkHealth 31) u) (fun a => nextIs (exec .stHealthCheck a) (fun _ => true)) =
      true := by decide +kernel

/-- One lane, two lanes and four lanes. -/
theorem witness_AllSetMask :
    1 ∈ [1, 2, 4] ∧ 2 ∈ [1, 2, 4] ∧ 4 ∈ [1, 2, 4] := by decide +kernel

/-- A state of the invariant that is busy. -/
theorem witness_CommandEnds :
    (withSes { pair 0 1 with phase := .phySetup } { inState .clockRecovery ⟨[ok [], ok [0x00, 0x00], ok
      [0x02, 0x00]], 1, [], 1, [false]⟩ with cmd := ⟨1, 0, 1⟩ }).inv = true ∧
      (withSes { pair 0 1 with phase := .phySetup } { inState .clockRecovery ⟨[ok [], ok [0x00, 0x00], ok
      [0x02, 0x00]], 1, [], 1, [false]⟩ with cmd := ⟨1, 0, 1⟩ }).env.rstN = true := by decide +kernel

end Sys2Proof.Tests
end

section
/-! PROOF. What one step of the block can do, said once for every state: it resets the block, takes a
presented command word, stays in `Idle`, or runs the action of `st`. The whole-machine rules are case
analyses of `step_cases`. -/

namespace Sys2Proof.Machine

open Sys2Proof

/-! ### Fetching -/

/-- The word of a state code decodes to the action of the state (R21, R95). -/
theorem decodeSt_code (x : Fsm) : decodeSt x.code = .ok (stateInstr x) := by
  cases x <;> rfl

/-- In `Idle` the presented word is fetched (R130). -/
theorem fetchWord_presented {s : State} {w : BitVec 8} {ws : List (BitVec 8)} (hs : s.st = .idle)
    (hw : s.env.cmds = w :: ws) : fetchWord s = .cmd w := by
  simp [fetchWord, hs, hw]

/-- Busy, or with no word presented, the state code is fetched (R21, R134). -/
theorem fetchWord_state {s : State} (h : s.st ≠ .idle ∨ s.env.cmds = []) :
    fetchWord s = .st s.st.code := by
  unfold fetchWord
  split
  · simp_all
  · rfl

theorem fetch_presented {s : State} {w : BitVec 8} {ws : List (BitVec 8)} (hs : s.st = .idle)
    (hw : s.env.cmds = w :: ws) : fetch s = .ok (decodeCmd w) := by
  rw [fetch, fetchWord_presented hs hw, decode]

theorem fetch_state {s : State} (h : s.st ≠ .idle ∨ s.env.cmds = []) :
    fetch s = .ok (stateInstr s.st) := by
  rw [fetch, fetchWord_state h, decode, decodeSt_code]

/-- Under reset a step leaves the reset state (R290). -/
theorem step_reset {s : State} (h : s.env.rstN = false) : step s = .next (blockReset s) := by
  simp [step, h]

/-- Outside reset a step runs what is fetched. -/
theorem step_of_fetch {s : State} {i : Instr} (h : s.env.rstN = true) (hf : fetch s = .ok i) :
    step s = exec i (afterFetch s) := by
  simp [step, h, hf]

/-! ### Commands -/

/-- Encoding what a command word decodes to gives the word back (R90, R91). -/
theorem encode_decodeCmd (w : BitVec 8) : encode (decodeCmd w) = .cmd w := by
  revert w; decide

theorem acceptWord_idle {s : State} (h : s.st = .idle) (w : BitVec 8) (k : State → State) :
    acceptWord w k s = .next (k (latchCommand w s)) := by
  simp [acceptWord, h]

/-- What accepting a word in `Idle` leads to (R130): the word is refused, or it starts a session of the
command it encodes. -/
inductive CommandEnd (w : BitVec 8) (u : State) : State → Prop
  | refuses : CommandEnd w u (takeException .badCommand (latchCommand w u))
  | trains : w.extractLsb' 0 2 = 1 → lanesLegal (w.extractLsb' 4 3).toNat = true →
      CommandEnd w u (startSession .capNeg (latchCommand w u))
  | checks : w.extractLsb' 0 2 = 2 → CommandEnd w u (startSession .healthCheck (latchCommand w u))

/-- The fields of the word of a `TRAIN` (R90). -/
theorem cmdWord_train_fields (rate : RateIdx) (lanes : LaneCount) :
    (cmdWord 0 lanes rate 1).extractLsb' 0 2 = 1 ∧ (cmdWord 0 lanes rate 1).extractLsb' 4 3 = lanes := by
  revert rate lanes; decide

/-- The `op` of the word of a `CHECK_HEALTH` (R91). -/
theorem checkHealth_word_op (x : BitVec 5) : (0#1 ++ x ++ 2#2 : BitVec 8).extractLsb' 0 2 = 2 := by
  revert x; decide

/-- A CMD row, run in `Idle`, accepts its word (R130). -/
theorem exec_cmdRow {i : Instr} {w : BitVec 8} {u : State} (hi : encode i = .cmd w) (hu : u.st = .idle) :
    ∃ v, exec i u = .next v ∧ CommandEnd w u v := by
  cases i with
  | train rate lanes =>
    cases hi
    obtain ⟨hop, hl⟩ := cmdWord_train_fields rate lanes
    refine ⟨_, acceptWord_idle hu _ _, ?_⟩
    by_cases h : lanesLegal lanes.toNat = true
    · rw [if_pos h]; exact .trains hop (hl.symm ▸ h)
    · rw [if_neg h]; exact .refuses
  | checkHealth x => cases hi; exact ⟨_, acceptWord_idle hu _ _, .checks (checkHealth_word_op x)⟩
  | illegalOp0 x => cases hi; exact ⟨_, acceptWord_idle hu _ _, .refuses⟩
  | illegalOp3 x => cases hi; exact ⟨_, acceptWord_idle hu _ _, .refuses⟩
  | illegalBit7 x => cases hi; exact ⟨_, acceptWord_idle hu _ _, .refuses⟩
  | _ => cases hi

/-! ### Actions -/

/-- How a round of `ClockRecovery` ends once the adjust request is read: the fifth stall leaves the state
(R175), every other request is adopted and counted (R176). -/
inductive AdjustEnd (q : AdjustReq) (u : State) : State → Prop
  | stalls : AdjustEnd q u (goTo .reduceLinkRate u)
  | adopts (stall : BitVec 3) :
      (stall = u.ses.crStallCnt + 1 ∧ u.ses.crStallCnt.toNat ≠ 4) ∨ stall = 0 →
      AdjustEnd q u { adopt Config.hw q u with
        ses.crStallCnt := stall, ses.totalRetryCnt := u.ses.totalRetryCnt + 1,
        st := if 10 ≤ (u.ses.totalRetryCnt + 1).toNat then .reduceLinkRate else .clockRecovery }

theorem crAfterAdjust_end (q : AdjustReq) (u : State) : AdjustEnd q u (crAfterAdjust Config.hw q u) := by
  unfold crAfterAdjust
  split
  · split
    · exact .stalls
    · exact .adopts _ (.inl ⟨rfl, ‹_›⟩)
  · exact .adopts 0 (.inr rfl)

/-- The states that an action leads to by naming them and writing nothing else (R22). -/
def plainExits : Fsm → List Fsm
  | .phySetup => [.linkUnplugged, .clockRecovery]
  | .clockRecovery => [.linkUnplugged, .equalizationSetup, .reduceLinkRate]
  | .equalizationSetup => [.equalization]
  | .equalization => [.linkUnplugged, .reduceLinkRate, .success]
  | _ => []

/-- The codes with which an action completes the command, given the pending code (R136, R264). -/
def doneCodes (pending : FailCode) : Fsm → List ResCode
  | .success => [.ok]
  | .failed => [failResult pending]
  | .linkUnplugged => [.linkUnplugged]
  | .healthCheck => [.auxTransportError, .ok, .retrainRequired]
  | _ => []

/-- How the action of the state `x` ends that has done nothing but input and output up to `u`. -/
inductive ActionEnd (u : State) : Fsm → State → Prop
  /-- `st` is written and nothing else. -/
  | goes {x y : Fsm} : y ∈ plainExits x → ActionEnd u x (goTo y u)
  /-- An exception leads to `Failed` (R262, R263). -/
  | fails {x : Fsm} {c : FailCode} : c ∈ failCodesFrom x → ActionEnd u x (enterFailed c u)
  /-- `CapNeg` latches the capabilities and refuses them (R152, R261). -/
  | mismatches (c : Caps) : ActionEnd u .capNeg (enterFailed .capabilityMismatch (latchCaps c u))
  /-- `CapNeg` latches the capabilities and the starting pair (R151, R153). -/
  | starts (b : List Byte) : (parseCaps Config.hw b).lanesLegal = true →
      ActionEnd u .capNeg
        (goTo .phySetup (latchStart (parseCaps Config.hw b) (latchCaps (parseCaps Config.hw b) u)))
  /-- A round of `ClockRecovery` ends with the adjust request (R175, R176). -/
  | adjusts {q : AdjustReq} {v : State} : AdjustEnd q u v → ActionEnd u .clockRecovery v
  /-- `ReduceLinkRate` goes one rate down (R185 to R187). -/
  | stepsDown : u.ses.curRate ≠ 0 → ActionEnd u .reduceLinkRate (stepDown (u.ses.curRate - 1) u)
  /-- A round of `Equalization` is made again (R202). -/
  | retries (q : AdjustReq) : u.ses.eqRetryCnt.toNat < 5 →
      ActionEnd u .equalization (eqRetry Config.hw q u)
  /-- `Done` (R136). -/
  | completes {x : Fsm} {code : ResCode} : code ∈ doneCodes u.failCode x →
      ActionEnd u x (doneCmd code u)

/-- The events that the action of a state makes; `Idle`, `ReduceLinkRate` and `LinkUnplugged` make none
before they end. -/
def actionEvent (s : State) : Fsm → Event → Prop
  | .capNeg => capNegEvent
  | .phySetup => phySetupEvent s
  | .clockRecovery => roundEvent 2 s
  | .equalizationSetup => eqSetupEvent
  | .equalization => roundEvent 3 s
  | .success => successEvent
  | .failed => auxEvents (.write 0x102 [0x00])
  | .healthCheck => healthEvent
  | _ => fun _ => False

/-- The state in which the action of `st` makes its first transaction: the step before is over, no request
is driven, and `phase` is written (R29, R37). -/
def actionStart (s : State) : State :=
  { dropRequests (afterFetch s) with ses.phase := phaseDuring s.st s.ses.phase }

/-- A step that runs the action of the state `x`. -/
abbrev ActionStep (x : Fsm) (s t : State) : Prop :=
  StepEnds (actionEvent s x) (fun u v => ActionEnd u x v) (actionStart s) t

/-- What a step leads to, said of every way its action ends. -/
theorem StepEnds.imp {Q : Event → Prop} {G H : State → State → Prop} {s t : State}
    (h : StepEnds Q G s t) (hGH : ∀ u v, IoOnly Q s u → G u v → H u v) : StepEnds Q H s t := by
  rcases h with h | ⟨u, v, hu, hn, hk, hg, ht⟩
  · exact .inl h
  · exact .inr ⟨u, v, hu, hn, hk, hGH u v hu hg, ht⟩

/-- Outside `HealthCheck` an `AuxFail` leads to `Failed` (R263). -/
theorem AuxFailed.enters {u v : State} (h : AuxFailed u v) (hu : u.st ≠ .healthCheck) :
    v = enterFailed .auxTransportError u := by
  obtain ⟨a, rfl⟩ := h
  simp [takeException, hu]

/-- The action of a state from which an `AuxFail` leads to `Failed` ends that way. -/
theorem AuxFailed.actionEnd {x : Fsm} {u v : State} (h : AuxFailed u v) (hu : u.st = x)
    (hx : FailCode.auxTransportError ∈ failCodesFrom x) : ActionEnd u x v := by
  have hne : u.st ≠ .healthCheck := by
    rintro h
    rw [← hu, h] at hx
    simp [failCodesFrom] at hx
  rw [h.enters hne]
  exact .fails hx

/-- An action that ends without input or output. -/
theorem StepEnds.at_once {Q : Event → Prop} {G : State → State → Prop} {s v : State} (hs : NoRequest s)
    (h : G s v) : StepEnds Q G s (endAction v) :=
  .inr ⟨s, v, IoOnly.refl _ _, hs, fun k => k, h, rfl⟩

/-! How each state's action ends, read as `ActionEnd`. -/

theorem CapNegEnd.actionEnd {u v : State} (h : CapNegEnd u v) (hu : u.st = .capNeg) :
    ActionEnd u .capNeg v := by
  rcases h with h | ⟨c, ⟨-, rfl⟩ | ⟨b, rfl, -, hl, rfl⟩⟩
  · exact h.actionEnd hu (by simp [failCodesFrom])
  · exact .mismatches c
  · exact .starts b hl

theorem PhySetupEnd.actionEnd {u v : State} (h : PhySetupEnd u v) (hu : u.st = .phySetup) :
    ActionEnd u .phySetup v := by
  rcases h with rfl | h | rfl
  · exact .goes (by simp [plainExits])
  · exact h.actionEnd hu (by simp [failCodesFrom])
  · exact .goes (by simp [plainExits])

theorem ClockRecoveryEnd.actionEnd {u v : State} (h : ClockRecoveryEnd u v) (hu : u.st = .clockRecovery) :
    ActionEnd u .clockRecovery v := by
  rcases h with rfl | h | rfl | rfl | ⟨q, rfl⟩
  · exact .goes (by simp [plainExits])
  · exact h.actionEnd hu (by simp [failCodesFrom])
  · exact .goes (by simp [plainExits])
  · exact .goes (by simp [plainExits])
  · exact .adjusts (crAfterAdjust_end q u)

theorem EqSetupEnd.actionEnd {u v : State} (h : EqSetupEnd u v) (hu : u.st = .equalizationSetup) :
    ActionEnd u .equalizationSetup v := by
  rcases h with h | rfl
  · exact h.actionEnd hu (by simp [failCodesFrom])
  · exact .goes (by simp [plainExits])

theorem EqualizationEnd.actionEnd {u v : State} (h : EqualizationEnd u v) (hu : u.st = .equalization) :
    ActionEnd u .equalization v := by
  rcases h with rfl | h | rfl | rfl | rfl | ⟨hlt, q, rfl⟩
  · exact .goes (by simp [plainExits])
  · exact h.actionEnd hu (by simp [failCodesFrom])
  · exact .goes (by simp [plainExits])
  · exact .goes (by simp [plainExits])
  · exact .fails (by simp [failCodesFrom])
  · exact .retries q hlt

theorem SuccessEnd.actionEnd {u v : State} (h : SuccessEnd u v) (hu : u.st = .success) :
    ActionEnd u .success v := by
  rcases h with h | rfl
  · exact h.actionEnd hu (by simp [failCodesFrom])
  · exact .completes (by simp [doneCodes])

theorem HealthEnd.actionEnd {u v : State} (h : HealthEnd u v) : ActionEnd u .healthCheck v := by
  rcases h with rfl | rfl | rfl <;> exact .completes (by simp [doneCodes])

/-- The two ways in which `ReduceLinkRate` ends (R185, R188). -/
theorem reduceLinkRate_actionEnd (u : State) :
    ActionEnd u .reduceLinkRate (if u.ses.curRate = 0 then enterFailed .trainingExhausted u
      else stepDown (u.ses.curRate - 1) u) := by
  split
  · exact .fails (by simp [failCodesFrom])
  · exact .stepsDown ‹_›

/-- The action of a busy state ends as `ActionEnd` says, or waits. -/
theorem exec_stateInstr (s : State) (hs : s.st ≠ .idle) :
    ∃ t, exec (stateInstr s.st) (afterFetch s) = .next t ∧ ActionStep s.st s t := by
  obtain ⟨st, cmd, ses, lanes, res, fc, try_, out, env, held, tick, tr⟩ := s
  cases st with
  | idle => exact absurd rfl hs
  | capNeg =>
    obtain ⟨t, ht, h⟩ := capNeg_step (afterFetch _)
    exact ⟨t, ht, h.imp fun u v hu h => h.actionEnd hu.st⟩
  | phySetup =>
    obtain ⟨t, ht, h⟩ := phySetup_step (afterFetch _)
    exact ⟨t, ht, h.imp fun u v hu h => h.actionEnd hu.st⟩
  | clockRecovery =>
    obtain ⟨t, ht, h⟩ := clockRecovery_step (afterFetch _)
    exact ⟨t, ht, h.imp fun u v hu h => h.actionEnd hu.st⟩
  | reduceLinkRate =>
    exact ⟨_, reduceLinkRate_step _, .at_once ⟨rfl, rfl, rfl⟩ (reduceLinkRate_actionEnd _)⟩
  | equalizationSetup =>
    obtain ⟨t, ht, h⟩ := equalizationSetup_step (afterFetch _)
    exact ⟨t, ht, h.imp fun u v hu h => h.actionEnd hu.st⟩
  | equalization =>
    obtain ⟨t, ht, h⟩ := equalization_step (afterFetch _)
    exact ⟨t, ht, h.imp fun u v hu h => h.actionEnd hu.st⟩
  | success =>
    obtain ⟨t, ht, h⟩ := success_step (afterFetch _)
    exact ⟨t, ht, h.imp fun u v hu h => h.actionEnd hu.st⟩
  | failed =>
    obtain ⟨t, ht, h⟩ := failed_step (afterFetch _)
    exact ⟨t, ht, h.imp fun u v _ h => by rw [h]; exact .completes (by simp [doneCodes])⟩
  | linkUnplugged =>
    exact ⟨_, linkUnplugged_step _, .at_once ⟨rfl, rfl, rfl⟩ (.completes (by simp [doneCodes]))⟩
  | healthCheck =>
    obtain ⟨t, ht, h⟩ := healthCheck_step (afterFetch _)
    exact ⟨t, ht, h.imp fun u v _ h => h.actionEnd⟩

/-! ### The step -/

/-- What one step can do (R5, R130, R134, R290). -/
inductive StepCase (s t : State) : Prop
  /-- Reset is asserted. -/
  | resets : s.env.rstN = false → t = blockReset s → StepCase s t
  /-- A presented word is accepted. -/
  | accepts (w : BitVec 8) : s.env.rstN = true → s.st = .idle → CommandEnd w (afterFetch s) t →
      StepCase s t
  /-- Nothing is presented in `Idle`. -/
  | idles : s.env.rstN = true → s.st = .idle → t = endAction (dropRequests (afterFetch s)) →
      StepCase s t
  /-- The block is busy. -/
  | acts : s.env.rstN = true → s.st ≠ .idle → ActionStep s.st s t → StepCase s t

/-- Every step is one of these cases. -/
theorem step_cases {s t : State} (h : step s = .next t) : StepCase s t := by
  cases hr : s.env.rstN with
  | false =>
    rw [step_reset hr] at h
    cases h
    exact .resets hr rfl
  | true =>
    by_cases hs : s.st = .idle
    · cases hw : s.env.cmds with
      | nil =>
        rw [step_of_fetch hr (fetch_state (.inr hw)), hs, stateInstr, idle_step] at h
        cases h
        refine .idles hr hs ?_
        rw [atStart, show goTo .idle (afterFetch s) = afterFetch s by simp [goTo, afterFetch, hs]]
      | cons w ws =>
        obtain ⟨v, hv, he⟩ := exec_cmdRow (encode_decodeCmd w) (show (afterFetch s).st = .idle from hs)
        rw [step_of_fetch hr (fetch_presented hs hw), hv] at h
        cases h
        exact .accepts w hr hs he
    · obtain ⟨v, hv, he⟩ := exec_stateInstr s hs
      rw [step_of_fetch hr (fetch_state (.inl hs)), hv] at h
      cases h
      exact .acts hr hs he

end Sys2Proof.Machine
end

section
/-! PROOF. The transition table (R22) and the fetch (R21, R130), and the PHASE rows: O51, O6, O7,
O36. -/

namespace Sys2Proof.Machine

open Sys2Proof

/-! ### The edges of R22 -/

theorem plainExits_subset (x : Fsm) : plainExits x ⊆ edgesFrom x := by
  cases x <;> decide

theorem failed_mem_edges {x : Fsm} {c : FailCode} (h : c ∈ failCodesFrom x) : .failed ∈ edgesFrom x := by
  cases x <;> simp_all [failCodesFrom, edgesFrom]

theorem idle_mem_edges {x : Fsm} {f : FailCode} {code : ResCode} (h : code ∈ doneCodes f x) :
    .idle ∈ edgesFrom x := by
  cases x <;> simp_all [doneCodes, edgesFrom]

theorem AdjustEnd.st_mem_edges {q : AdjustReq} {u v : State} (h : AdjustEnd q u v) :
    v.st ∈ edgesFrom .clockRecovery := by
  cases h with
  | stalls => simp [edgesFrom]
  | adopts stall _ => dsimp only; split <;> simp [edgesFrom]

/-- An action ends along an edge of its state. -/
theorem ActionEnd.st_mem_edges {u v : State} {x : Fsm} (h : ActionEnd u x v) : v.st ∈ edgesFrom x := by
  cases h with
  | goes hy => exact plainExits_subset _ hy
  | fails hc => exact failed_mem_edges hc
  | mismatches c => simp [edgesFrom]
  | starts b _ => simp [edgesFrom]
  | adjusts h => exact h.st_mem_edges
  | stepsDown _ => simp [edgesFrom]
  | retries q _ => simp [edgesFrom]
  | completes hc => exact idle_mem_edges hc

/-- An accepted word leads along an edge of `Idle`. -/
theorem CommandEnd.st_mem_edges {w : BitVec 8} {u v : State} (h : CommandEnd w u v) :
    v.st ∈ edgesFrom .idle := by
  cases h with
  | refuses => simp [takeException, doneCmd, edgesFrom]
  | trains _ _ => simp [startSession, edgesFrom]
  | checks _ => simp [startSession, edgesFrom]

/-- A block whose request is unanswered waits. -/
theorem Unanswered.waiting {s : State} (h : Unanswered s) : s.waiting = true := by
  rcases h with ⟨ha, -⟩ | ⟨-, hp, -⟩ | ⟨-, -, hw, -⟩
  · simp [State.waiting, ha]
  · simp [State.waiting, hp]
  · simp [State.waiting, hw]

/-- Settles O51, by the ways a step can end. -/
theorem transitionTable : Obligations.TransitionTable := by
  intro s t hr h
  cases step_cases h with
  | resets hr' _ => simp [hr] at hr'
  | accepts w _ hs hc => left; rw [hs]; exact hc.st_mem_edges
  | idles _ hs ht => left; subst ht; simp [hs, edgesFrom]
  | acts _ _ hact =>
    rcases hact with ⟨hio, hun, -⟩ | ⟨u, v, -, -, -, hend, rfl⟩
    · exact .inr ⟨hio.st, hun.waiting⟩
    · exact .inl hend.st_mem_edges

/-- Settles O6, by the definition of a step outside reset. -/
theorem stepRunsDecoded : Obligations.StepRunsDecoded :=
  fun _ _ hr hd => step_of_fetch hr hd

/-- Settles O7, by the two cases of the fetched word. -/
theorem fetchSelects : Obligations.FetchSelects :=
  ⟨fun _ _ _ hs hw => fetch_presented hs hw, fun _ h => fetch_state h⟩

/-- Settles O36: each row is `setPhase` of its code. -/
theorem phaseRowsWrite : Obligations.PhaseRowsWrite :=
  fun _ => ⟨rfl, rfl, rfl, rfl, rfl, rfl, rfl⟩

end Sys2Proof.Machine
end

section
/-! PROOF. The repetition counters of the lane file (R34, R234): O46. -/

namespace Sys2Proof.Machine

open Sys2Proof

/-- A counter that shows `n` kept values, saturated at 5, shows them after one more request (R234). -/
theorem nextRep_saturates {rep : BitVec 3} {n : Nat} (r v : Level) (h : rep.toNat = min n 5) :
    (nextRep Config.hw (r == v) rep).toNat = min (if r = v then n + 1 else 0) 5 := by
  unfold nextRep
  by_cases hrv : r = v
  · simp only [hrv, beq_self_eq_true, if_true, h, hw_maxReachThreshold, BitVec.toNat_ofNat]
    omega
  · simp [hrv]

/-- The lane after an adoption, by lane number (R234). -/
theorem get_adoptLanes (P : Params) (q : AdjustReq) (f : Lanes Lane) (i : LaneIdx) :
    (adoptLanes P q f).get i = adoptLane P (q.sw.get i) (q.pe.get i) (f.get i) :=
  Lanes.get_ofFn _ i

/-- The counters of a lane count on from any lane file whose counters show `m` and `n`. -/
theorem foldl_adoptLanes_reps (i : LaneIdx) (qs : List AdjustReq) :
    ∀ (f : Lanes Lane) (m n : Nat), (f.get i).swRep.toNat = min m 5 → (f.get i).peRep.toNat = min n 5 →
      let l := (qs.foldl (fun f q => adoptLanes Config.hw q f) f).get i
      l.swRep.toNat = min (keptAtEnd (f.get i).sw m (qs.map fun q => q.sw.get i)) 5 ∧
      l.peRep.toNat = min (keptAtEnd (f.get i).pe n (qs.map fun q => q.pe.get i)) 5 := by
  induction qs with
  | nil => exact fun _ _ _ hm hn => ⟨hm, hn⟩
  | cons q qs ih =>
    intro f m n hm hn
    have hget := get_adoptLanes Config.hw q f i
    have := ih (adoptLanes Config.hw q f) _ _
      (by rw [hget]; exact nextRep_saturates (q.sw.get i) (f.get i).sw hm)
      (by rw [hget]; exact nextRep_saturates (q.pe.get i) (f.get i).pe hn)
    rwa [hget] at this

/-- Settles O46, by induction on the adoptions, from any lane file. -/
theorem repetitionCounters : Obligations.RepetitionCounters := by
  intro qs i
  have h := foldl_adoptLanes_reps i qs (Lanes.replicate Lane.reset) 0 0
    (by simp [Lane.reset]) (by simp [Lane.reset])
  simpa [Lane.reset] using h

end Sys2Proof.Machine
end

section
/-! PROOF. The result registers and the `DONE` event (R36, R37, R136): O54. -/

namespace Sys2Proof.Machine

open Sys2Proof

/-! ### The events before the end of an action -/

/-- No event of an AUX transaction is a completion. -/
theorem auxEvents_ne_done {q : AuxReq} {e : Event} (h : auxEvents q e) (r : ResultRegs) : e ≠ .done r := by
  rcases h with ⟨a, rfl⟩ | rfl
  · cases q <;> simp [AuxReq.event]
  · simp

theorem phyBlockEvents_ne_done {s : State} {e : Event} (h : e ∈ phyBlockEvents s) (r : ResultRegs) :
    e ≠ .done r := by
  rintro rfl
  simp [phyBlockEvents] at h

theorem roundEvent_ne_done {n : Nat} {s : State} {e : Event} (h : roundEvent n s e) (r : ResultRegs) :
    e ≠ .done r := by
  rcases h with ⟨b, rfl⟩ | rfl | h | rfl | h | h
  · simp
  · simp
  · exact auxEvents_ne_done h r
  · simp
  · exact auxEvents_ne_done h r
  · exact auxEvents_ne_done h r

theorem phySetupEvent_ne_done {s : State} {e : Event} (h : phySetupEvent s e) (r : ResultRegs) :
    e ≠ .done r := by
  rcases h with ⟨b, rfl⟩ | ⟨p, rfl⟩ | h | rfl | h | h
  · simp
  · simp
  · exact phyBlockEvents_ne_done h r
  · simp
  · exact auxEvents_ne_done h r
  · exact auxEvents_ne_done h r

/-- Up to its end no action makes a completion. -/
theorem actionEvent_ne_done {s : State} {x : Fsm} {e : Event} (h : actionEvent s x e) (r : ResultRegs) :
    e ≠ .done r := by
  cases x with
  | idle => exact h.elim
  | capNeg => exact auxEvents_ne_done h r
  | phySetup => exact phySetupEvent_ne_done h r
  | clockRecovery => exact roundEvent_ne_done h r
  | reduceLinkRate => exact h.elim
  | equalizationSetup =>
    obtain ⟨p, -, rfl | h⟩ := h
    · simp
    · exact auxEvents_ne_done h r
  | equalization => exact roundEvent_ne_done h r
  | success =>
    obtain rfl | h := h
    · simp
    · exact auxEvents_ne_done h r
  | failed => exact auxEvents_ne_done h r
  | linkUnplugged => exact h.elim
  | healthCheck =>
    obtain h | h | ⟨p, rfl⟩ := h
    · exact auxEvents_ne_done h r
    · exact auxEvents_ne_done h r
    · simp

/-! ### Completions -/

/-- From `s` to `t` no command completes: no result, no `done`, no `DONE` event. -/
def NotDone (s t : State) : Prop :=
  t.out.done = false ∧ t.res = s.res ∧ ∃ es, t.trace = s.trace ++ es ∧ ∀ r, Event.done r ∉ es

/-- From `s` to `t` a command completes: the result of R136, the `done` pulse, one `DONE` event, last. -/
def JustDone (s t : State) : Prop :=
  t.out.done = true ∧ t.st = .idle ∧ (∃ code, t.res = t.result code) ∧
    ∃ es, t.trace = s.trace ++ es ++ [.done t.res] ∧ ∀ r, Event.done r ∉ es

/-- Whatever writes none of the three registers completes nothing. -/
theorem NotDone.of_same {s u v : State} (h : NotDone s u) (hd : v.out.done = u.out.done)
    (hr : v.res = u.res) (ht : v.trace = u.trace) : NotDone s v := by
  obtain ⟨h1, h2, h3⟩ := h
  exact ⟨hd.trans h1, hr.trans h2, by rwa [ht]⟩

/-- `Done` completes the command. -/
theorem NotDone.doneCmd {s u : State} (h : NotDone s u) (code : ResCode) :
    JustDone s (doneCmd code u) := by
  obtain ⟨-, -, es, hes, hnd⟩ := h
  exact ⟨rfl, rfl, ⟨code, rfl⟩, es, by rw [← hes]; rfl, hnd⟩

/-- Input and output complete nothing if none of their events does. -/
theorem IoOnly.notDone {Q : Event → Prop} {s u : State} (h : IoOnly Q s u) (hs : s.out.done = false)
    (hQ : ∀ e, Q e → ∀ r, e ≠ .done r) : NotDone s u := by
  obtain ⟨es, hes, hq⟩ := h.events
  exact ⟨h.done.trans hs, h.res, es, hes, fun r hr => hQ _ (hq _ hr) r rfl⟩

/-- An action ends with `Done`, or writes neither the result nor `done` and makes no event. -/
theorem ActionEnd.done_or_same {u v : State} {x : Fsm} (h : ActionEnd u x v) :
    (∃ code, v = doneCmd code u) ∨ (v.out.done = u.out.done ∧ v.res = u.res ∧ v.trace = u.trace) := by
  cases h with
  | goes _ => exact .inr ⟨rfl, rfl, rfl⟩
  | fails _ => exact .inr ⟨rfl, rfl, rfl⟩
  | mismatches c => exact .inr ⟨rfl, rfl, rfl⟩
  | starts b _ => exact .inr ⟨rfl, rfl, rfl⟩
  | adjusts h => cases h <;> exact .inr ⟨rfl, rfl, rfl⟩
  | stepsDown _ => exact .inr ⟨rfl, rfl, rfl⟩
  | retries q _ => exact .inr ⟨rfl, rfl, rfl⟩
  | completes _ => exact .inl ⟨_, rfl⟩

/-- A refused word completes the command; an accepted one makes its `CMD` event only (R130, R266). -/
theorem CommandEnd.done {w : BitVec 8} {u v : State} (h : CommandEnd w u v) (hu : u.out.done = false) :
    NotDone u v ∨ JustDone u v := by
  have hl : NotDone u (latchCommand w u) := ⟨hu, rfl, [.cmd w], rfl, by simp⟩
  cases h with
  | refuses =>
    have hc : NotDone u { latchCommand w u with ses.phase := .none, ses.curRate := 0, ses.curLanes := 0 } :=
      hl.of_same rfl rfl rfl
    exact .inr (hc.doneCmd .badCommand)
  | trains _ _ => exact .inl (hl.of_same rfl rfl rfl)
  | checks _ => exact .inl (hl.of_same rfl rfl rfl)

/-- Settles O54, by the ways a step can end. -/
theorem onlyDoneWritesResult : Obligations.OnlyDoneWritesResult := by
  intro s t hr h
  show NotDone s t ∨ JustDone s t
  cases step_cases h with
  | resets hr' _ => simp [hr] at hr'
  | accepts w _ _ hc => exact hc.done rfl
  | idles _ _ ht => subst ht; exact .inl ⟨rfl, rfl, [], by simp, by simp⟩
  | acts _ _ hact =>
    have hev : ∀ e, actionEvent s s.st e → ∀ r, e ≠ .done r := fun _ he => actionEvent_ne_done he
    rcases hact with ⟨hio, -, -⟩ | ⟨u, v, hio, -, -, hend, rfl⟩
    · exact .inl (hio.notDone rfl hev)
    · have hu : NotDone s u := hio.notDone rfl hev
      rcases hend.done_or_same with ⟨code, rfl⟩ | ⟨hd, hr, ht⟩
      · exact .inr (hu.doneCmd code)
      · exact .inl (hu.of_same hd hr ht)

end Sys2Proof.Machine
end

section
/-! PROOF. The writers of the registers, and the frame of an exception (R24 to R34, R261 to R264, R271):
O53. -/

namespace Sys2Proof.Machine

open Sys2Proof

/-- What the action of the state `x` keeps, from the end `u` of its input and output to its own end `v`. -/
structure ActionKeeps (x : Fsm) (u v : State) : Prop where
  cmd : v.cmd = u.cmd
  phase : v.ses.phase = u.ses.phase
  caps : x ≠ .capNeg → v.ses.curLanes = u.ses.curLanes ∧ v.ses.capTps3 = u.ses.capTps3 ∧
    v.ses.capTps4 = u.ses.capTps4 ∧ v.ses.capEfc = u.ses.capEfc ∧ v.ses.rdInterval = u.ses.rdInterval
  rate : x ≠ .capNeg → x ≠ .reduceLinkRate → v.ses.curRate = u.ses.curRate
  lanes : x ≠ .clockRecovery → x ≠ .equalization → x ≠ .reduceLinkRate → v.lanes = u.lanes
  crCounters : x ≠ .clockRecovery → x ≠ .reduceLinkRate →
    v.ses.crStallCnt = u.ses.crStallCnt ∧ v.ses.totalRetryCnt = u.ses.totalRetryCnt
  eqCounter : x ≠ .equalization → x ≠ .reduceLinkRate → v.ses.eqRetryCnt = u.ses.eqRetryCnt
  failCode : x = .failed ∨ v.st ≠ .failed → v.failCode = u.failCode
  entersFailed : x ≠ .failed → v.st = .failed → v.failCode ∈ failCodesFrom x
  exception : v.st = .failed ∨ v.st = .linkUnplugged → v.lanes = u.lanes ∧
    v.ses.curRate = u.ses.curRate ∧ v.ses.curLanes = u.ses.curLanes ∧
    v.ses.crStallCnt = u.ses.crStallCnt ∧ v.ses.eqRetryCnt = u.ses.eqRetryCnt ∧
    v.ses.totalRetryCnt = u.ses.totalRetryCnt

/-- An end that keeps every register but `st`, and enters `Failed` only from `Failed`. -/
theorem ActionKeeps.of_same {x : Fsm} {u v : State} (hc : v.cmd = u.cmd) (hs : v.ses = u.ses)
    (hl : v.lanes = u.lanes) (hf : v.failCode = u.failCode) (hst : x ≠ .failed → v.st ≠ .failed) :
    ActionKeeps x u v := by
  constructor <;> simp +contextual [hc, hs, hl, hf, hst]

/-- Entering `Failed` with a code of its state. -/
theorem ActionKeeps.fails {x : Fsm} {c : FailCode} (u : State) (hc : c ∈ failCodesFrom x) :
    ActionKeeps x u (enterFailed c u) := by
  have hx : x ≠ .failed := by rintro rfl; simp [failCodesFrom] at hc
  constructor <;> simp [hx, hc]

/-- What each end of an action keeps. -/
theorem ActionEnd.keeps {u v : State} {x : Fsm} (h : ActionEnd u x v) : ActionKeeps x u v := by
  cases h with
  | goes hy =>
    refine .of_same rfl rfl rfl rfl fun _ hst => ?_
    obtain rfl : _ = Fsm.failed := hst
    revert hy; cases x <;> decide
  | fails hc => exact .fails u hc
  | mismatches c => constructor <;> simp [failCodesFrom]
  | starts b _ => constructor <;> simp
  | adjusts h =>
    cases h with
    | stalls => exact .of_same rfl rfl rfl rfl (by simp)
    | adopts stall _ =>
      have hst : ∀ n : Nat, (if 10 ≤ n then Fsm.reduceLinkRate else .clockRecovery) ≠ .failed ∧
          (if 10 ≤ n then Fsm.reduceLinkRate else .clockRecovery) ≠ .linkUnplugged := by
        intro n; split <;> simp
      constructor <;> simp [hst]
  | stepsDown _ => constructor <;> simp
  | retries q _ => constructor <;> simp
  | completes _ => exact .of_same rfl rfl rfl rfl (by simp [doneCmd])

/-- Input and output before the end write none of these registers. -/
theorem ActionKeeps.after_io {Q : Event → Prop} {x : Fsm} {s u v : State} (hio : IoOnly Q s u)
    (h : ActionKeeps x u v) : ActionKeeps x s v where
  cmd := hio.cmd ▸ h.cmd
  phase := hio.ses ▸ h.phase
  caps := hio.ses ▸ h.caps
  rate := hio.ses ▸ h.rate
  lanes := hio.lanes ▸ h.lanes
  crCounters := hio.ses ▸ h.crCounters
  eqCounter := hio.ses ▸ h.eqCounter
  failCode := hio.failCode ▸ h.failCode
  entersFailed := h.entersFailed
  exception := hio.lanes ▸ hio.ses ▸ h.exception

/-- A step of a busy block keeps what its action keeps, and a wait keeps it all. -/
theorem ActionStep.keeps {s t : State} (h : ActionStep s.st s t) : ActionKeeps s.st (actionStart s) t := by
  rcases h with ⟨hio, -, -⟩ | ⟨u, v, hio, -, -, hend, rfl⟩
  · have hst : t.st = s.st := hio.st
    exact .of_same hio.cmd hio.ses hio.lanes hio.failCode fun h => hst ▸ h
  · exact { hend.keeps.after_io hio with }

/-- Settles O53: what the action keeps, said of the step. -/
theorem registerWriters : Obligations.RegisterWriters := by
  intro s t hr hs h
  cases step_cases h with
  | resets hr' _ => simp [hr] at hr'
  | accepts w _ hs' _ => exact absurd hs' hs
  | idles _ hs' _ => exact absurd hs' hs
  | acts _ _ hact =>
    obtain ⟨hcmd, hphase, hcaps, hrate, hlanes, hcr, heq, hfail, henters, hexn⟩ := ActionStep.keeps hact
    exact ⟨hcmd, hphase, hcaps, hrate, hlanes, hcr, heq, hfail, henters, hexn⟩

end Sys2Proof.Machine
end

section
/-! PROOF. The invariant of the block (R26, R30 to R34, R76, R94, R134, R240): O49, O50. -/

namespace Sys2Proof.Machine

open Sys2Proof

/-! ### The parts of the invariant -/

/-- The registers are as the invariant says: the part of it that is not about the ports. -/
structure RegsFit (s : State) : Prop where
  crStall : s.ses.crStallCnt.toNat ≤ 4
  eqRetry : s.ses.eqRetryCnt.toNat ≤ 5
  totalRetry : s.ses.totalRetryCnt.toNat ≤ 10
  auxTry : TryFits s
  lanes : ∀ l ∈ s.lanes.toList, l.inRange Config.hw = true
  ses : s.ses.fits Config.hw s.st s.failCode s.cmd s.lanes = true
  res : s.res.legal = true

theorem State.inv_iff (s : State) : s.inv = true ↔ RegsFit s ∧ s.portsFit = true := by
  simp only [State.inv, State.countersInRange, Bool.and_eq_true, decide_eq_true_eq, List.all_eq_true]
  constructor
  · rintro ⟨⟨⟨⟨⟨⟨⟨hcr, heq⟩, htot⟩, htry⟩, hl⟩, hs⟩, hr⟩, hp⟩
    exact ⟨⟨hcr, heq, htot, htry, hl, hs, hr⟩, hp⟩
  · rintro ⟨⟨hcr, heq, htot, htry, hl, hs, hr⟩, hp⟩
    exact ⟨⟨⟨⟨⟨⟨⟨hcr, heq⟩, htot⟩, htry⟩, hl⟩, hs⟩, hr⟩, hp⟩

/-! ### The ports -/

theorem portsFit_of_noRequest {s : State} (h : NoRequest s) (hh : s.held = Held.empty) :
    s.portsFit = true := by
  obtain ⟨ha, hp, hw⟩ := h
  simp [State.portsFit, State.outstanding, State.waiting, ha, hp, hw, hh]

/-- A busy block with one unanswered request. -/
theorem portsFit_of_unanswered {s : State} (h : Unanswered s) (hs : s.st ≠ .idle) : s.portsFit = true := by
  have hw := h.waiting
  rcases h with ⟨h1, h2, h3, -⟩ | ⟨h1, h2, h3, -⟩ | ⟨h1, h2, h3, -⟩ <;>
    simp [State.portsFit, State.outstanding, hw, hs, h1, h2, h3]

/-- In `Idle` no request is driven and no answer held (R134). -/
theorem idle_ports {s : State} (h : s.portsFit = true) (hs : s.st = .idle) :
    NoRequest s ∧ s.held = Held.empty := by
  simp only [State.portsFit, hs, Bool.and_eq_true, Bool.or_eq_true, beq_self_eq_true, Bool.true_and,
    Bool.not_eq_true', beq_iff_eq] at h
  obtain ⟨⟨-, hh⟩, hw⟩ := h
  refine ⟨?_, hh.resolve_left (by simp [hw])⟩
  simpa [State.waiting, NoRequest, and_assoc] using hw

/-! ### What holds in each state -/

theorem lanesLegal_iff (n : Nat) : lanesLegal n = true ↔ n = 1 ∨ n = 2 ∨ n = 4 := by
  simp [lanesLegal, or_assoc]

theorem pairIsZero_iff (s : Session) : pairIsZero s = true ↔ s.curRate = 0 ∧ s.curLanes = 0 := by
  simp [pairIsZero]

theorem countersAreZero_iff (s : Session) :
    countersAreZero s = true ↔ s.crStallCnt = 0 ∧ s.eqRetryCnt = 0 ∧ s.totalRetryCnt = 0 := by
  simp [countersAreZero, and_assoc]

theorem lanesAreReset_iff (f : Lanes Lane) :
    lanesAreReset f = true ↔ f = Lanes.replicate Lane.reset := by
  simp [lanesAreReset]

/-- A `TRAIN` that has fixed its lane count (R26). -/
def Trains (c : CmdLatch) (s : Session) : Prop := c.op = 1 ∧ lanesLegal s.curLanes.toNat = true

section
variable (f : FailCode) (c : CmdLatch) (s : Session) (l : Lanes Lane)

theorem fits_idle : s.fits Config.hw .idle f c l = true := rfl

theorem fits_capNeg_iff : s.fits Config.hw .capNeg f c l = true ↔
    c.op = 1 ∧ lanesLegal c.lanes.toNat = true ∧ pairIsZero s = true ∧ countersAreZero s = true ∧
      l = Lanes.replicate Lane.reset := by
  simp [Session.fits, lanesAreReset_iff, and_assoc]

theorem fits_phySetup_iff : s.fits Config.hw .phySetup f c l = true ↔
    Trains c s ∧ countersAreZero s = true ∧ l = Lanes.replicate Lane.reset := by
  simp [Session.fits, Trains, lanesAreReset_iff, and_assoc]

theorem fits_clockRecovery_iff : s.fits Config.hw .clockRecovery f c l = true ↔
    Trains c s ∧ s.eqRetryCnt = 0 ∧ s.totalRetryCnt.toNat < 10 ∧
      s.crStallCnt.toNat ≤ s.totalRetryCnt.toNat := by
  simp only [Session.fits, Bool.and_eq_true, decide_eq_true_eq, beq_iff_eq, Trains, and_assoc]
  rw [hw_totalRetryMax]

theorem fits_reduceLinkRate_iff : s.fits Config.hw .reduceLinkRate f c l = true ↔
    Trains c s ∧ (s.phase = .cr ∨ s.phase = .eq) := by
  simp [Session.fits, Trains]

theorem fits_equalizationSetup_iff : s.fits Config.hw .equalizationSetup f c l = true ↔
    Trains c s ∧ s.eqRetryCnt = 0 := by
  simp [Session.fits, Trains]

theorem fits_equalization_iff : s.fits Config.hw .equalization f c l = true ↔ Trains c s := by
  simp [Session.fits, Trains]

theorem fits_success_iff : s.fits Config.hw .success f c l = true ↔ Trains c s ∧ s.phase = .eq := by
  simp [Session.fits, Trains]

theorem fits_linkUnplugged_iff : s.fits Config.hw .linkUnplugged f c l = true ↔
    Trains c s ∧ (s.phase = .phySetup ∨ s.phase = .cr ∨ s.phase = .eq) := by
  simp [Session.fits, Trains, or_assoc]

theorem fits_healthCheck_iff : s.fits Config.hw .healthCheck f c l = true ↔
    c.op = 2 ∧ pairIsZero s = true := by
  simp [Session.fits]

theorem fits_exhausted_iff : s.fits Config.hw .failed .trainingExhausted c l = true ↔
    Trains c s ∧ (s.phase = .cr ∨ s.phase = .eq) := by
  simp [Session.fits, Trains, and_assoc]

theorem fits_mismatch_iff : s.fits Config.hw .failed .capabilityMismatch c l = true ↔
    c.op = 1 ∧ pairIsZero s = true ∧ s.phase = .capNeg := by
  simp [Session.fits]

theorem fits_auxError_iff : s.fits Config.hw .failed .auxTransportError c l = true ↔
    (c.op = 1 ∧ pairIsZero s = true ∧ s.phase = .capNeg) ∨
      (Trains c s ∧ (s.phase = .phySetup ∨ s.phase = .cr ∨ s.phase = .eqSetup ∨ s.phase = .eq)) := by
  simp [Session.fits, Trains, and_assoc, or_assoc, ← and_or_left]

end

/-! ### Completions -/

/-- A completion leaves legal registers if its result is a row that R92 and R94 allow. -/
theorem RegsFit.doneCmd {u : State} (h : RegsFit u) {code : ResCode}
    (hwf : (u.result code).instr.wf = true) : RegsFit (doneCmd code u) where
  __ := h
  ses := rfl
  res := hwf

/-- The fields of the result of a `TRAIN` that has fixed its lane count (R92). -/
theorem Trains.resOfTrain {u : State} (h : Trains u.cmd u.ses) :
    resOfTrain u.cmd.op u.ses.curLanes = true := by
  simp [Sys2Proof.resOfTrain, resOpTrain, h.1, h.2]

/-- The fields of the result of a `TRAIN` that ended in `CapNeg` (R92, R152). -/
theorem resOfCapNeg_of_pairIsZero {u : State} (hop : u.cmd.op = 1) (hz : pairIsZero u.ses = true)
    (hp : u.ses.phase = .capNeg) :
    resOfCapNeg u.cmd.op u.ses.phase u.ses.curRate u.ses.curLanes = true := by
  obtain ⟨hr, hl⟩ := (pairIsZero_iff _).mp hz
  simp [resOfCapNeg, resOpTrain, hop, hp, hr, hl]

/-- The fields of the result of a `CHECK_HEALTH` (R132, R245). -/
theorem resOfCheck_of_pairIsZero {u : State} (hop : u.cmd.op = 2) (hz : pairIsZero u.ses = true)
    (hp : u.ses.phase = .health) :
    resOfCheck u.cmd.op u.ses.phase u.ses.curRate u.ses.curLanes = true := by
  obtain ⟨hr, hl⟩ := (pairIsZero_iff _).mp hz
  simp [resOfCheck, resOpCheckHealth, hop, hp, hr, hl]

/-- The result that `Failed` completes with is well-formed (R94). -/
theorem failed_result_wf {u : State}
    (hs : u.ses.fits Config.hw .failed u.failCode u.cmd u.lanes = true) :
    (u.result (failResult u.failCode)).instr.wf = true := by
  cases hf : u.failCode with
  | trainingExhausted =>
    rw [hf, fits_exhausted_iff] at hs
    simpa [failResult, State.result, ResultRegs.instr, Instr.wf, hs.1.resOfTrain] using hs.2
  | capabilityMismatch =>
    rw [hf, fits_mismatch_iff] at hs
    obtain ⟨hop, hz, hp⟩ := hs
    exact resOfCapNeg_of_pairIsZero hop hz hp
  | auxTransportError =>
    rw [hf, fits_auxError_iff] at hs
    rcases hs with ⟨hop, hz, hp⟩ | ⟨ht, hp⟩
    · simp [failResult, State.result, ResultRegs.instr, Instr.wf, resOfCapNeg_of_pairIsZero hop hz hp]
    · rcases hp with hp | hp | hp | hp <;>
        simp [failResult, State.result, ResultRegs.instr, Instr.wf, ht.resOfTrain, hp]

/-- The result that each state can complete with is well-formed (R94). -/
theorem result_wf {x : Fsm} {u : State} {code : ResCode}
    (hs : u.ses.fits Config.hw x u.failCode u.cmd u.lanes = true)
    (hp : u.ses.phase = phaseDuring x u.ses.phase) (hc : code ∈ doneCodes u.failCode x) :
    (u.result code).instr.wf = true := by
  cases x with
  | success =>
    obtain ⟨ht, hph⟩ := (fits_success_iff _ _ _ _).mp hs
    obtain rfl : code = .ok := by simpa [doneCodes] using hc
    simp [State.result, ResultRegs.instr, Instr.wf, ht.resOfTrain, hph]
  | failed =>
    obtain rfl : code = failResult u.failCode := by simpa [doneCodes] using hc
    exact failed_result_wf hs
  | linkUnplugged =>
    obtain ⟨ht, hph⟩ := (fits_linkUnplugged_iff _ _ _ _).mp hs
    obtain rfl : code = .linkUnplugged := by simpa [doneCodes] using hc
    rcases hph with hph | hph | hph <;>
      simp [State.result, ResultRegs.instr, Instr.wf, ht.resOfTrain, hph]
  | healthCheck =>
    obtain ⟨hop, hz⟩ := (fits_healthCheck_iff _ _ _ _).mp hs
    have hcheck := resOfCheck_of_pairIsZero hop hz hp
    simp only [doneCodes, List.mem_cons, List.not_mem_nil, or_false] at hc
    rcases hc with rfl | rfl | rfl <;>
      simp [State.result, ResultRegs.instr, Instr.wf, hcheck]
  | _ => simp [doneCodes] at hc

/-! ### Moves -/

/-- `st` and the pending code written, to a state that the session registers fit. -/
theorem RegsFit.move {u : State} (h : RegsFit u) {y : Fsm} {f : FailCode}
    (hy : u.ses.fits Config.hw y f u.cmd u.lanes = true) :
    RegsFit { u with st := y, failCode := f } where
  __ := h
  ses := hy

/-- The session registers fit each state that an action goes to and writes nothing else. -/
theorem fits_plainExit {x y : Fsm} {f : FailCode} {c : CmdLatch} {s : Session} {l : Lanes Lane}
    (hs : s.fits Config.hw x f c l = true) (hp : s.phase = phaseDuring x s.phase)
    (hy : y ∈ plainExits x) : s.fits Config.hw y f c l = true := by
  cases x with
  | phySetup =>
    obtain ⟨ht, hz, -⟩ := (fits_phySetup_iff _ _ _ _).mp hs
    obtain ⟨hcr, heq, htot⟩ := (countersAreZero_iff s).mp hz
    simp only [plainExits, List.mem_cons, List.not_mem_nil, or_false] at hy
    rcases hy with rfl | rfl
    · exact (fits_linkUnplugged_iff _ _ _ _).mpr ⟨ht, .inl hp⟩
    · exact (fits_clockRecovery_iff _ _ _ _).mpr ⟨ht, heq, by simp [htot], by simp [hcr]⟩
  | clockRecovery =>
    obtain ⟨ht, heq, -⟩ := (fits_clockRecovery_iff _ _ _ _).mp hs
    simp only [plainExits, List.mem_cons, List.not_mem_nil, or_false] at hy
    rcases hy with rfl | rfl | rfl
    · exact (fits_linkUnplugged_iff _ _ _ _).mpr ⟨ht, .inr (.inl hp)⟩
    · exact (fits_equalizationSetup_iff _ _ _ _).mpr ⟨ht, heq⟩
    · exact (fits_reduceLinkRate_iff _ _ _ _).mpr ⟨ht, .inl hp⟩
  | equalizationSetup =>
    obtain ⟨ht, -⟩ := (fits_equalizationSetup_iff _ _ _ _).mp hs
    obtain rfl : y = .equalization := by simpa [plainExits] using hy
    exact (fits_equalization_iff _ _ _ _).mpr ht
  | equalization =>
    have ht := (fits_equalization_iff _ _ _ _).mp hs
    simp only [plainExits, List.mem_cons, List.not_mem_nil, or_false] at hy
    rcases hy with rfl | rfl | rfl
    · exact (fits_linkUnplugged_iff _ _ _ _).mpr ⟨ht, .inr (.inr hp)⟩
    · exact (fits_reduceLinkRate_iff _ _ _ _).mpr ⟨ht, .inr hp⟩
    · exact (fits_success_iff _ _ _ _).mpr ⟨ht, hp⟩
  | _ => simp [plainExits] at hy

/-- The session registers fit `Failed` with each code that the state can raise (R262 to R264). -/
theorem fits_failed {x : Fsm} {f g : FailCode} {c : CmdLatch} {s : Session} {l : Lanes Lane}
    (hs : s.fits Config.hw x f c l = true) (hp : s.phase = phaseDuring x s.phase)
    (hg : g ∈ failCodesFrom x) : s.fits Config.hw .failed g c l = true := by
  cases x with
  | capNeg =>
    obtain ⟨hop, -, hz, -⟩ := (fits_capNeg_iff _ _ _ _).mp hs
    simp only [failCodesFrom, List.mem_cons, List.not_mem_nil, or_false] at hg
    rcases hg with rfl | rfl
    · exact (fits_mismatch_iff _ _ _).mpr ⟨hop, hz, hp⟩
    · exact (fits_auxError_iff _ _ _).mpr (.inl ⟨hop, hz, hp⟩)
  | phySetup =>
    obtain ⟨ht, -⟩ := (fits_phySetup_iff _ _ _ _).mp hs
    obtain rfl : g = .auxTransportError := by simpa [failCodesFrom] using hg
    exact (fits_auxError_iff _ _ _).mpr (.inr ⟨ht, .inl hp⟩)
  | clockRecovery =>
    obtain ⟨ht, -⟩ := (fits_clockRecovery_iff _ _ _ _).mp hs
    obtain rfl : g = .auxTransportError := by simpa [failCodesFrom] using hg
    exact (fits_auxError_iff _ _ _).mpr (.inr ⟨ht, .inr (.inl hp)⟩)
  | reduceLinkRate =>
    obtain rfl : g = .trainingExhausted := by simpa [failCodesFrom] using hg
    exact (fits_exhausted_iff _ _ _).mpr ((fits_reduceLinkRate_iff _ _ _ _).mp hs)
  | equalizationSetup =>
    obtain ⟨ht, -⟩ := (fits_equalizationSetup_iff _ _ _ _).mp hs
    obtain rfl : g = .auxTransportError := by simpa [failCodesFrom] using hg
    exact (fits_auxError_iff _ _ _).mpr (.inr ⟨ht, .inr (.inr (.inl hp))⟩)
  | equalization =>
    have ht := (fits_equalization_iff _ _ _ _).mp hs
    simp only [failCodesFrom, List.mem_cons, List.not_mem_nil, or_false] at hg
    rcases hg with rfl | rfl
    · exact (fits_exhausted_iff _ _ _).mpr ⟨ht, .inr hp⟩
    · exact (fits_auxError_iff _ _ _).mpr (.inr ⟨ht, .inr (.inr (.inr hp))⟩)
  | success =>
    obtain ⟨ht, hph⟩ := (fits_success_iff _ _ _ _).mp hs
    obtain rfl : g = .auxTransportError := by simpa [failCodesFrom] using hg
    exact (fits_auxError_iff _ _ _).mpr (.inr ⟨ht, .inr (.inr (.inr hph))⟩)
  | _ => simp [failCodesFrom] at hg

/-! ### Adoptions and the starting pair -/

/-- A repetition counter never passes 5 (R234, R240). -/
theorem nextRep_le (same : Bool) {rep : BitVec 3} : (nextRep Config.hw same rep).toNat ≤ 5 := by
  unfold nextRep
  split
  · rw [BitVec.toNat_ofNat, hw_maxReachThreshold]; omega
  · simp

theorem adoptLanes_inRange (q : AdjustReq) (f : Lanes Lane) :
    ∀ l ∈ (adoptLanes Config.hw q f).toList, l.inRange Config.hw = true := by
  intro l hl
  obtain ⟨i, rfl⟩ := List.mem_ofFn.mp hl
  simp [Lane.inRange, adoptLane, nextRep_le]

theorem resetLanes_inRange :
    ∀ l ∈ (Lanes.replicate Lane.reset).toList, l.inRange Config.hw = true := by
  intro l hl
  obtain rfl := (List.mem_replicate.mp hl).2
  rfl

/-- The lower of two lane counts is a lane count (R153). -/
theorem startLanes_legal {n : LaneCount} {b : List Byte} (hn : lanesLegal n.toNat = true)
    (hc : (parseCaps Config.hw b).lanesLegal = true) :
    lanesLegal (startLanes n (parseCaps Config.hw b).maxLanes).toNat = true := by
  unfold startLanes
  split
  · exact hn
  · simp only [parseCaps, lanesLegal_iff, BitVec.toNat_setWidth] at hc ⊢
    omega

/-! ### The step -/

/-- Input and output keep the registers in their ranges. -/
theorem RegsFit.io {Q : Event → Prop} {s u : State} (h : RegsFit s) (hio : IoOnly Q s u)
    (hk : KeepsTry s u) : RegsFit u where
  crStall := hio.ses ▸ h.crStall
  eqRetry := hio.ses ▸ h.eqRetry
  totalRetry := hio.ses ▸ h.totalRetry
  auxTry := hk h.auxTry
  lanes := hio.lanes ▸ h.lanes
  ses := by rw [hio.ses, hio.st, hio.failCode, hio.cmd, hio.lanes]; exact h.ses
  res := hio.res ▸ h.res

/-- The end of an action writes none of the registers of the invariant. -/
theorem RegsFit.endAction {v : State} (h : RegsFit v) : RegsFit (endAction v) := { h with }

/-- The fetch writes none of the registers of the invariant. -/
theorem RegsFit.afterFetch {s : State} (h : RegsFit s) : RegsFit (afterFetch s) := { h with }

theorem RegsFit.dropRequests {s : State} (h : RegsFit s) : RegsFit (dropRequests s) := { h with }

/-- How a round of `ClockRecovery` leaves the registers (R175, R176). -/
theorem AdjustEnd.regsFit {q : AdjustReq} {u v : State} (h : AdjustEnd q u v) (hu : RegsFit u)
    (hst : u.st = .clockRecovery) (hp : u.ses.phase = .cr) : RegsFit v := by
  have hs := hu.ses
  rw [hst] at hs
  cases h with
  | stalls => exact hu.move (fits_plainExit hs hp (by simp [plainExits]))
  | adopts stall hstall =>
    obtain ⟨ht, heq, htot, hle⟩ := (fits_clockRecovery_iff _ _ _ _).mp hs
    have htot' : (u.ses.totalRetryCnt + 1).toNat = u.ses.totalRetryCnt.toNat + 1 := by
      rw [BitVec.toNat_add]; simp; omega
    have hstall' : stall.toNat ≤ 4 ∧ stall.toNat ≤ u.ses.totalRetryCnt.toNat + 1 := by
      have hcr := hu.crStall
      rcases hstall with ⟨rfl, hne⟩ | rfl
      · rw [BitVec.toNat_add]; simp; omega
      · simp
    refine ⟨hstall'.1, hu.eqRetry, htot'.trans_le htot, hu.auxTry, adoptLanes_inRange q _, ?_,
      hu.res⟩
    dsimp only
    split
    · exact (fits_reduceLinkRate_iff _ _ _ _).mpr ⟨ht, .inl hp⟩
    · exact (fits_clockRecovery_iff _ _ _ _).mpr
        ⟨ht, heq, Nat.lt_of_not_le ‹_›, hstall'.2.trans_eq htot'.symm⟩

/-- Every end of an action keeps the registers as the invariant says. -/
theorem ActionEnd.regsFit {u v : State} {x : Fsm} (h : ActionEnd u x v) (hu : RegsFit u)
    (hst : u.st = x) (hp : u.ses.phase = phaseDuring x u.ses.phase) : RegsFit v := by
  have hs := hu.ses
  rw [hst] at hs
  cases h with
  | goes hy => exact hu.move (fits_plainExit hs hp hy)
  | fails hc => exact hu.move (fits_failed hs hp hc)
  | mismatches c =>
    obtain ⟨hop, -, hz, -⟩ := (fits_capNeg_iff _ _ _ _).mp hs
    exact { hu with ses := (fits_mismatch_iff _ _ _).mpr ⟨hop, hz, hp⟩ }
  | starts b hb =>
    obtain ⟨hop, hn, -, hz, hl⟩ := (fits_capNeg_iff _ _ _ _).mp hs
    exact { hu with ses := (fits_phySetup_iff _ _ _ _).mpr ⟨⟨hop, startLanes_legal hn hb⟩, hz, hl⟩ }
  | adjusts h => exact h.regsFit hu hst hp
  | stepsDown _ =>
    obtain ⟨ht, -⟩ := (fits_reduceLinkRate_iff _ _ _ _).mp hs
    exact ⟨by simp, by simp, by simp, hu.auxTry, resetLanes_inRange,
      (fits_phySetup_iff _ _ _ _).mpr ⟨ht, rfl, rfl⟩, hu.res⟩
  | retries q hlt =>
    have ht := (fits_equalization_iff _ _ _ _).mp hs
    refine ⟨hu.crStall, ?_, hu.totalRetry, hu.auxTry, adoptLanes_inRange q _,
      (fits_equalization_iff _ _ _ _).mpr ht, hu.res⟩
    rw [eqRetry_ses, BitVec.toNat_add]
    simp
    omega
  | completes hc => exact hu.doneCmd (result_wf hs hp hc)

/-- The end of an action drives no request that was not driven before. -/
theorem ActionEnd.noRequest {u v : State} {x : Fsm} (h : ActionEnd u x v) (hu : NoRequest u) :
    NoRequest v := by
  cases h with
  | adjusts h => cases h <;> exact hu
  | _ => exact hu

/-- The first line of an action keeps the registers as the invariant says: in the states that write `phase`
the invariant does not speak of it. -/
theorem RegsFit.actionStart {s : State} (h : RegsFit s) : RegsFit (actionStart s) where
  __ := h
  ses := by
    have hs := h.ses
    revert hs
    show _ → Session.fits Config.hw s.st s.failCode s.cmd
      { s.ses with phase := phaseDuring s.st s.ses.phase } s.lanes = true
    cases s.st <;> exact fun hs => hs

theorem phaseDuring_idem (x : Fsm) (p : Phase) : phaseDuring x (phaseDuring x p) = phaseDuring x p := by
  cases x <;> rfl

/-- The step of a busy block keeps the invariant. -/
theorem ActionStep.inv {s t : State} (h : ActionStep s.st s t) (hs : s.st ≠ .idle) (hr : RegsFit s) :
    t.inv = true := by
  rw [State.inv_iff]
  rcases h with ⟨hio, hun, hk⟩ | ⟨u, v, hio, hn, hk, hend, rfl⟩
  · exact ⟨hr.actionStart.io hio hk, portsFit_of_unanswered hun (hio.st.trans_ne hs)⟩
  · have hp : u.ses.phase = phaseDuring s.st u.ses.phase := by
      rw [hio.ses]; exact (phaseDuring_idem s.st s.ses.phase).symm
    have hv : RegsFit v := hend.regsFit (hr.actionStart.io hio hk) hio.st hp
    exact ⟨hv.endAction, portsFit_of_noRequest (hend.noRequest hn) rfl⟩

/-- A fresh session keeps the registers as the invariant says (R137). -/
theorem RegsFit.startSession {u : State} (h : RegsFit u) {x : Fsm}
    (hx : Session.reset.fits Config.hw x u.failCode u.cmd (Lanes.replicate Lane.reset) = true) :
    RegsFit (startSession x u) :=
  ⟨Nat.zero_le 4, Nat.zero_le 5, Nat.zero_le 10, h.auxTry, resetLanes_inRange, hx, h.res⟩

/-- Accepting a word keeps the registers as the invariant says (R130, R266). -/
theorem CommandEnd.regsFit {w : BitVec 8} {u v : State} (h : CommandEnd w u v) (hst : u.st = .idle)
    (hu : RegsFit u) : RegsFit v := by
  have hl : RegsFit (latchCommand w u) :=
    { hu with ses := by simp [hst, fits_idle] }
  cases h with
  | refuses =>
    exact { hu with ses := rfl, res := rfl }
  | trains hop hn =>
    exact hl.startSession ((fits_capNeg_iff _ _ _ _).mpr ⟨hop, hn, rfl, rfl, rfl⟩)
  | checks hop => exact hl.startSession ((fits_healthCheck_iff _ _ _ _).mpr ⟨hop, rfl⟩)

/-- Accepting a word drives no request and holds no answer. -/
theorem CommandEnd.ports {w : BitVec 8} {u v : State} (h : CommandEnd w u v) :
    v.held = u.held ∧ (NoRequest u → NoRequest v) := by
  cases h <;> exact ⟨rfl, fun h => h⟩

/-- The invariant does not read the inputs, the free-value counter and the trace. -/
theorem blockReset_inv (s : State) : (blockReset s).inv = true := by
  show State.reset.inv = true
  decide

/-- Settles O49: the reset state is one that a reset leaves. -/
theorem resetMeetsInvariant : Obligations.ResetMeetsInvariant := blockReset_inv State.reset

/-- Settles O50, by the ways a step can end: the registers by `ActionEnd.regsFit` and `CommandEnd.regsFit`,
the ports by whether the action waits. -/
theorem stepKeepsInvariant : Obligations.StepKeepsInvariant := by
  intro s t hinv h
  obtain ⟨hregs, hports⟩ := s.inv_iff.mp hinv
  have hfetch := hregs.afterFetch
  cases step_cases h with
  | resets _ ht => subst ht; exact blockReset_inv s
  | accepts w _ hs hc =>
    obtain ⟨hn, hh⟩ := idle_ports hports hs
    obtain ⟨hheld, hreq⟩ := hc.ports
    exact t.inv_iff.mpr ⟨hc.regsFit hs hfetch, portsFit_of_noRequest (hreq hn) (hheld.trans hh)⟩
  | idles _ _ ht =>
    subst ht
    exact (State.inv_iff _).mpr
      ⟨hfetch.dropRequests.endAction, portsFit_of_noRequest ⟨rfl, rfl, rfl⟩ rfl⟩
  | acts _ hs hact => exact ActionStep.inv hact hs hregs

end Sys2Proof.Machine
end

section
/-! PROOF. The events that the block may make (R70, R108, R110): O52. -/

namespace Sys2Proof.Machine

open Sys2Proof

/-! ### AUX transactions -/

/-- An attempt of an access that R70 lists is legal, and so is the back-off wait (R70, R110). -/
theorem auxEvents_legal {q : AuxReq} {e : Event} (h : auxEvents q e)
    (hq : ∀ a, eventLegal Config.hw (q.event a) = true) : eventLegal Config.hw e = true := by
  rcases h with ⟨a, rfl⟩ | rfl
  · exact hq a
  · decide

theorem auxRead_legal {addr : Addr} {n : Nat} {e : Event} (h : auxEvents (.read addr n) e)
    (hq : (addr, n) ∈ readAccesses Config.hw) : eventLegal Config.hw e = true :=
  auxEvents_legal h fun _ => List.contains_iff_mem.mpr hq

theorem auxWrite_legal {addr : Addr} {v : List Byte} {e : Event} (h : auxEvents (.write addr v) e)
    (hq : writeLegal Config.hw addr v = true) : eventLegal Config.hw e = true :=
  auxEvents_legal h fun _ => hq

/-- Each pattern byte may be written at 0x102 (R70, R98). -/
theorem patternWrite_legal (p : Pattern) : writeLegal Config.hw 0x102 [tpsetByte Config.hw p] = true := by
  cases p <;> decide

/-- The burst at 0x100 is one of R163's for every rate and every lane count (R70, R163). -/
theorem linkConfigWrite_legal {s : State} (h : lanesLegal s.ses.curLanes.toNat = true) :
    writeLegal Config.hw 0x100 (linkConfigOf s) = true := by
  have key : ∀ (r : RateIdx) (n : LaneCount) (efc : Bool), lanesLegal n.toNat = true →
      writeLegal Config.hw 0x100 [rateCode Config.hw r, laneCountSetByte Config.hw n efc] = true := by
    decide
  exact key _ _ _ h

/-- Bits 7:6 of a lane-set byte are 0 (R101). -/
theorem laneSetEncode_high (f : LaneSet) : (laneSetEncode Config.hw f).extractLsb' 6 2 = 0 := by
  obtain ⟨sw, pe, maxSw, maxPe⟩ := f
  revert sw pe maxSw maxPe
  decide

/-- The four lane-set bytes may be written at 0x103 (R70, R101). -/
theorem laneSetWrite_legal (f : Lanes Lane) :
    writeLegal Config.hw 0x103 (laneSetBytes Config.hw f) = true := by
  have hlen : (laneSetBytes Config.hw f).length = 4 := (f.map _).length_toList
  have hall : ∀ b ∈ laneSetBytes Config.hw f, b.extractLsb' 6 2 = 0 := by
    intro b hb
    obtain ⟨l, -, rfl⟩ := List.mem_map.mp hb
    exact laneSetEncode_high _
  simp only [writeLegal, Bool.or_eq_true, Bool.and_eq_true, List.all_eq_true, beq_iff_eq]
  exact .inr ⟨⟨rfl, hlen⟩, hall⟩

/-! ### PHY operations and waits -/

/-- A PHY operation is legal if its op code and argument are those of a well-formed instruction (R108). -/
theorem phyLegal_of_decode {op : PhyOpc} {arg : BitVec 16} {i : Instr}
    (h : decodePhyArg op.code arg = .ok i) (hi : i.wf = true) : phyLegal op arg = true := by
  obtain ⟨hop, harg⟩ := phyReqWord_fields op arg
  rw [phyLegal, decodePhyReq, hop, harg, h]
  exact hi

/-- `PHY_SET_VOLT_PE` has no unused argument bit (R108). -/
theorem setVoltPe_legal (arg : BitVec 16) : phyLegal .setVoltPe arg = true :=
  phyLegal_of_decode (i := .phySetVoltPe _ _) rfl rfl

theorem setPattern_legal (p : Pattern) : phyLegal .setPattern (p.code.setWidth 16) = true :=
  phyLegal_of_decode (i := .phySetPattern p) (by cases p <;> decide) rfl

theorem setLinkRate_legal (r : RateIdx) : phyLegal .setLinkRate (r.setWidth 16) = true :=
  phyLegal_of_decode (i := .phySetLinkRate r) (by revert r; decide) rfl

theorem setLaneCount_legal {n : LaneCount} (h : lanesLegal n.toNat = true) :
    phyLegal .setLaneCount (n.setWidth 16) = true :=
  phyLegal_of_decode (i := .phySetLaneCount n) (by clear h; revert n; decide) h

/-- The PHY block of `PhySetup` for a legal lane count (R108, R162). -/
theorem phyBlock_legal {s : State} (h : lanesLegal s.ses.curLanes.toNat = true) {e : Event}
    (he : e ∈ phyBlockEvents s) : eventLegal Config.hw e = true := by
  have hfixed : phyLegal .reset 1 = true ∧ phyLegal .modeSetting 0 = true ∧
      phyLegal .setEnhFrame 1 = true ∧ phyLegal .reset 0 = true ∧ phyLegal .postInit 0 = true ∧
      phyLegal .waitPllLock 0 = true := by decide
  obtain ⟨h1, h2, h3, h4, h5, h6⟩ := hfixed
  simp only [phyBlockEvents, List.mem_append, List.mem_cons, List.not_mem_nil, or_false] at he
  rcases he with (((rfl | rfl | rfl | rfl) | he) | (rfl | rfl | rfl))
  · exact h1
  · exact setLinkRate_legal _
  · exact h2
  · exact setLaneCount_legal h
  · obtain rfl : e = .phy .setEnhFrame 1 := by revert he; split <;> simp
    exact h3
  · exact h4
  · exact h5
  · exact h6

/-- The read interval is a duration of R110 (R172). -/
theorem readInterval_legal (d : BitVec 7) : waitLegal (readIntervalUs Config.hw d).toNat = true := by
  revert d; decide

/-! ### Actions -/

theorem roundEvent_legal {n : Nat} {s : State} {e : Event} (h : roundEvent n s e) (hn : n = 2 ∨ n = 3) :
    eventLegal Config.hw e = true := by
  rcases h with ⟨b, rfl⟩ | rfl | h | rfl | h | h
  · rfl
  · exact setVoltPe_legal _
  · exact auxWrite_legal h (laneSetWrite_legal _)
  · exact readInterval_legal _
  · exact auxRead_legal h (by rcases hn with rfl | rfl <;> simp [readAccesses])
  · exact auxRead_legal h (by simp [readAccesses])

theorem phySetupEvent_legal {s : State} (hs : lanesLegal s.ses.curLanes.toNat = true) {e : Event}
    (h : phySetupEvent s e) : eventLegal Config.hw e = true := by
  rcases h with ⟨b, rfl⟩ | ⟨p, rfl⟩ | h | rfl | h | h
  · rfl
  · rfl
  · exact phyBlock_legal hs h
  · exact setPattern_legal .tps1
  · exact auxWrite_legal h (linkConfigWrite_legal hs)
  · exact auxWrite_legal h (patternWrite_legal .tps1)

/-- Every event that an action makes before its end is legal; `PhySetup` needs its lane count to be one
(R26, R108, R163). -/
theorem actionEvent_legal {s : State} {x : Fsm} {e : Event} (h : actionEvent s x e)
    (hs : x = .phySetup → lanesLegal s.ses.curLanes.toNat = true) : eventLegal Config.hw e = true := by
  cases x with
  | idle => exact h.elim
  | capNeg => exact auxRead_legal h (by simp [readAccesses])
  | phySetup => exact phySetupEvent_legal (hs rfl) h
  | clockRecovery => exact roundEvent_legal h (.inl rfl)
  | reduceLinkRate => exact h.elim
  | equalizationSetup =>
    obtain ⟨p, -, rfl | h⟩ := h
    · exact setPattern_legal p
    · exact auxWrite_legal h (patternWrite_legal p)
  | equalization => exact roundEvent_legal h (.inr rfl)
  | success =>
    obtain rfl | h := h
    · exact setPattern_legal .normal
    · exact auxWrite_legal h (patternWrite_legal .normal)
  | failed => exact auxWrite_legal h (patternWrite_legal .normal)
  | linkUnplugged => exact h.elim
  | healthCheck =>
    obtain h | h | ⟨p, rfl⟩ := h
    · exact auxRead_legal h (by simp [readAccesses])
    · exact auxRead_legal h (by simp [readAccesses])
    · rfl

/-! ### The step -/

/-- From `s` to `t` events are added, all of them legal. -/
def AddsLegal (s t : State) : Prop :=
  ∃ es, t.trace = s.trace ++ es ∧ ∀ ev ∈ es, eventLegal Config.hw ev = true

/-- One more legal event. -/
theorem AddsLegal.emit {s u v : State} (h : AddsLegal s u) {e : Event}
    (he : eventLegal Config.hw e = true) (hv : v.trace = u.trace ++ [e]) : AddsLegal s v := by
  obtain ⟨es, hes, hl⟩ := h
  refine ⟨es ++ [e], by rw [hv, hes, List.append_assoc], ?_⟩
  simpa [or_imp, forall_and] using ⟨hl, he⟩

theorem AddsLegal.of_same {s u v : State} (h : AddsLegal s u) (hv : v.trace = u.trace) : AddsLegal s v := by
  rwa [AddsLegal, hv]

/-- The end of an action makes at most a `DONE`. -/
theorem ActionEnd.addsLegal {s u v : State} {x : Fsm} (h : ActionEnd u x v) (hu : AddsLegal s u) :
    AddsLegal s v := by
  rcases h.done_or_same with ⟨code, rfl⟩ | ⟨-, -, ht⟩
  · exact hu.emit (e := .done _) rfl rfl
  · exact hu.of_same ht

/-- Accepting a word makes its `CMD` and at most a `DONE` (R130, R266). -/
theorem CommandEnd.addsLegal {w : BitVec 8} {u v : State} (h : CommandEnd w u v) : AddsLegal u v := by
  have hl : AddsLegal u (latchCommand w u) := ⟨[.cmd w], rfl, by simp [eventLegal]⟩
  cases h with
  | refuses => exact hl.emit (e := .done _) rfl rfl
  | trains _ _ => exact hl.of_same rfl
  | checks _ => exact hl.of_same rfl

/-- Settles O52, by the ways a step can end. -/
theorem eventsAreLegal : Obligations.EventsAreLegal := by
  intro s t hinv h
  obtain ⟨hregs, -⟩ := s.inv_iff.mp hinv
  show AddsLegal s t
  have hnone : AddsLegal s s := ⟨[], by simp, by simp⟩
  cases step_cases h with
  | resets _ ht => subst ht; exact hnone.of_same rfl
  | accepts w _ _ hc => exact hc.addsLegal
  | idles _ _ ht => subst ht; exact hnone.of_same rfl
  | acts _ hs hact =>
    have hlanes : s.st = .phySetup → lanesLegal s.ses.curLanes.toNat = true := by
      intro hst
      have hfits := hregs.ses
      rw [hst, fits_phySetup_iff] at hfits
      exact hfits.1.2
    have hio : ∀ {u}, IoOnly (actionEvent s s.st) (actionStart s) u → AddsLegal s u := by
      intro u hio
      obtain ⟨es, hes, hev⟩ := hio.events
      exact ⟨es, hes, fun ev he => actionEvent_legal (hev ev he) hlanes⟩
    rcases hact with ⟨hu, -, -⟩ | ⟨u, v, hu, -, -, hend, rfl⟩
    · exact hio hu
    · exact (hend.addsLegal (hio hu)).of_same rfl

end Sys2Proof.Machine
end

section
/-! PROOF. A block that waits (R76, R299): O56. -/

namespace Sys2Proof.Machine

open Sys2Proof

theorem NoRequest.not_waiting {s : State} (h : NoRequest s) : s.waiting = false := by
  obtain ⟨ha, hp, hw⟩ := h
  simp [State.waiting, ha, hp, hw]

/-- An action after which the block waits has done nothing but input and output, and its request is
unanswered. -/
theorem ActionStep.unanswered {x : Fsm} {s t : State} (h : ActionStep x s t) (hw : t.waiting = true) :
    IoOnly (actionEvent s x) (actionStart s) t ∧ Unanswered t := by
  rcases h with ⟨hio, hun, -⟩ | ⟨u, v, -, hn, -, hend, rfl⟩
  · exact ⟨hio, hun⟩
  · have hv : (endAction v).waiting = false := NoRequest.not_waiting (hend.noRequest hn)
    rw [hv] at hw
    cases hw

/-- Exactly one request is outstanding, and the answer to it has not come. -/
theorem Unanswered.outstanding {t : State} (h : Unanswered t) :
    t.outstanding = 1 ∧ (t.out.auxReq.isSome = true → t.env.auxRsps = []) ∧
      (t.out.phyReq.isSome = true → t.env.phyAcks = 0) ∧
      (t.out.waitReq.isSome = true → t.env.waitDones = 0) := by
  rcases h with ⟨h1, h2, h3, h⟩ | ⟨h1, h2, h3, h⟩ | ⟨h1, h2, h3, h⟩ <;>
    simp [State.outstanding, h1, h2, h3, h]

/-- Only the step of a busy block can leave it waiting: in `Idle` no request is driven (R134). -/
theorem busy_of_waiting {s t : State} (hs : s.portsFit = true) (h : StepCase s t)
    (hr : s.env.rstN = true) (hw : t.waiting = true) : s.st ≠ .idle ∧ ActionStep s.st s t := by
  have hidle : ¬ NoRequest t := fun hn => by rw [hn.not_waiting] at hw; cases hw
  cases h with
  | resets hr' _ => rw [hr] at hr'; cases hr'
  | accepts w _ hst hc =>
    obtain ⟨hn, -⟩ := idle_ports hs hst
    exact absurd (hc.ports.2 hn) hidle
  | idles _ _ ht => subst ht; exact absurd ⟨rfl, rfl, rfl⟩ hidle
  | acts _ hst hact => exact ⟨hst, hact⟩

/-- Settles O56: only a busy block waits, after nothing but input and output. -/
theorem waitingIsUnanswered : Obligations.WaitingIsUnanswered := by
  intro s t hinv hr h hw
  obtain ⟨-, hports⟩ := s.inv_iff.mp hinv
  obtain ⟨hst, hact⟩ := busy_of_waiting hports (step_cases h) hr hw
  obtain ⟨hio, hun⟩ := hact.unanswered hw
  obtain ⟨hone, haux, hphy, hwait⟩ := hun.outstanding
  have hst' : t.st = s.st := hio.st
  exact ⟨hone, haux, hphy, hwait, hst', by simp [State.busy, hst', hst], hio.cmd, hio.failCode, hio.lanes,
    hio.res, hio.done, hio.ses⟩

end Sys2Proof.Machine
end

section
/-! PROOF. Waiting is transparent (R76, log entry 3): O57. Three runs of one action are compared: the one
that blocks, the one that has the missing answers at hand, and the one that goes on from the blocked state.
`Transparent` says of a piece of an action that the last two meet, and it is kept by sequencing. -/

namespace Sys2Proof.Machine

open Sys2Proof

/-! ### Answers held, answers to come -/

/-- The answers of `h`, then those of `k`. -/
def Held.append (h k : Held) : Held :=
  ⟨h.aux ++ k.aux, k.acks + h.acks, h.samples ++ k.samples, k.waits + h.waits, h.polls ++ k.polls⟩

@[simp] theorem Held.append_empty (h : Held) : h.append Held.empty = h := by
  simp [Held.append, Held.empty]

@[simp] theorem Held.empty_append (h : Held) : Held.empty.append h = h := by
  simp [Held.append, Held.empty]

theorem Held.append_assoc (h k l : Held) : (h.append k).append l = h.append (k.append l) := by
  simp [Held.append, Nat.add_assoc]

/-- The state, with the responses, acknowledgements and ends of waits of `m` to come later. -/
def State.later (s : State) (m : Held) : State := { s with env := s.env.later m.aux m.acks m.waits }

/-! ### Pieces of an action -/

/-- The run of `a` from `s`, nothing held, returned `x` in `r` and took the answers `d`. Then it returns
the same if more answers are to come; and a run that holds `d` returns the same from any state `u` with the
same registers, leaving `u` as it is but for `aux_try`. `counted`: the piece counts `aux_try` on from the
value it finds. -/
structure Returned {α : Type} (counted : Prop) (a : Act α) (s : State) (x : α) (r : Run) (d : Held) :
    Prop where
  replay : r.replay = Held.empty
  ses : r.s.ses = s.ses
  lanes : r.s.lanes = s.lanes
  held : r.s.held = s.held.append d
  later : ∀ m, a ⟨s.later m, Held.empty⟩ = .ok x ⟨r.s.later m, Held.empty⟩
  again : ∀ (u : State) (rest : Held), u.ses = s.ses → u.lanes = s.lanes →
    (counted → u.auxTry = s.auxTry) →
    ∃ c, a ⟨u, d.append rest⟩ = .ok x ⟨{ u with auxTry := c }, rest⟩ ∧
      (c = r.s.auxTry ∨ (c = u.auxTry ∧ r.s.auxTry = s.auxTry))

/-- The run of `a` from `s`, nothing held, blocked in `t` and took the answers `d`. Then, once the answers
`m` have come, a run from `t` that holds `d` ends as one from `s` that has them at hand; also with `aux_try`
as it was in `s`. -/
structure Blocked {α : Type} (counted : Prop) (a : Act α) (s t : State) (d : Held) : Prop where
  ses : t.ses = s.ses
  lanes : t.lanes = s.lanes
  held : t.held = s.held.append d
  resume : ∀ m c, (c = s.auxTry ∨ (¬ counted ∧ c = t.auxTry)) →
    a ⟨{ dropRequests (t.later m) with auxTry := c }, d⟩ = a ⟨s.later m, Held.empty⟩

/-- A run of `a` from `s` that blocks can be resumed, and one that ends leaves no request. -/
def ResumesIn {α : Type} (counted : Prop) (a : Act α) (s : State) : EStateM.Result Stop Run α → Prop
  | .ok _ r => NoRequest r.s
  | .error (.raised _) r => NoRequest r.s
  | .error .blocked r => ∃ d, Blocked counted a s r.s d

/-- Every run of `a` that blocks can be resumed. -/
def Resumes {α : Type} (counted : Prop) (a : Act α) : Prop :=
  ∀ s, NoRequest s → ResumesIn counted a s (a ⟨s, Held.empty⟩)

/-- Every run of `a` can be resumed if it blocks and replayed if it returns. -/
structure Transparent {α : Type} (counted : Prop) (a : Act α) : Prop where
  resumes : Resumes counted a
  replays : ∀ s x r, NoRequest s → a ⟨s, Held.empty⟩ = .ok x r → ∃ d, Returned counted a s x r d

variable {α β : Type} {counted : Prop}

/-! ### Sequencing -/

/-- After a piece that returned, the run goes on as the rest does. -/
theorem Transparent.bind_resumes {a : Act α} {f : α → Act β} (ha : Transparent counted a)
    (hf : ∀ x, Resumes counted (f x)) : Resumes counted (a >>= f) := by
  intro s hs
  have hres := ha.resumes s hs
  rw [act_bind]
  rcases ha' : a ⟨s, Held.empty⟩ with ⟨x, s1, p⟩ | ⟨e | _, r⟩ <;> rw [ha'] at hres
  · obtain ⟨d, hd⟩ := ha.replays s x _ hs ha'
    obtain rfl : p = Held.empty := hd.replay
    have hrest := hf x s1 hres
    show ResumesIn counted _ s (f x ⟨s1, Held.empty⟩)
    rcases hf' : f x ⟨s1, Held.empty⟩ with ⟨y, r2⟩ | ⟨e | _, r2⟩ <;> rw [hf'] at hrest
    · exact hrest
    · exact hrest
    · obtain ⟨d', hb⟩ := hrest
      refine ⟨d.append d', hb.ses.trans hd.ses, hb.lanes.trans hd.lanes, ?_, fun m c hc => ?_⟩
      · rw [hb.held, hd.held, Held.append_assoc]
      · obtain ⟨c', hrun, hc'⟩ := hd.again { dropRequests (r2.s.later m) with auxTry := c } d'
          (hb.ses.trans hd.ses) (hb.lanes.trans hd.lanes) fun k => hc.resolve_right fun h => h.1 k
        have hmeet : c' = s1.auxTry ∨ (¬ counted ∧ c' = r2.s.auxTry) := by
          rcases hc' with rfl | ⟨rfl, hsame⟩
          · exact .inl rfl
          · exact hc.imp_left fun h => h.trans hsame.symm
        rw [act_bind, hrun, act_bind, hd.later m]
        exact hb.resume m c' hmeet
  · exact hres
  · obtain ⟨d, hb⟩ := hres
    refine ⟨d, hb.ses, hb.lanes, hb.held, fun m c hc => ?_⟩
    rw [act_bind, hb.resume m c hc, act_bind]

theorem Transparent.bind {a : Act α} {f : α → Act β} (ha : Transparent counted a)
    (hf : ∀ x, Transparent counted (f x)) : Transparent counted (a >>= f) where
  resumes := ha.bind_resumes fun x => (hf x).resumes
  replays := by
    intro s y r hs h
    have hres := ha.resumes s hs
    rw [act_bind] at h
    rcases ha' : a ⟨s, Held.empty⟩ with ⟨x, s1, p⟩ | ⟨e, r1⟩ <;> rw [ha'] at h hres
    · obtain ⟨d, hd⟩ := ha.replays s x _ hs ha'
      obtain rfl : p = Held.empty := hd.replay
      obtain ⟨d', hd'⟩ := (hf x).replays s1 y r hres h
      refine ⟨d.append d', hd'.replay, hd'.ses.trans hd.ses, hd'.lanes.trans hd.lanes, ?_, fun m => ?_,
        fun u rest hses hlanes hc => ?_⟩
      · rw [hd'.held, hd.held, Held.append_assoc]
      · rw [act_bind, hd.later m]
        exact hd'.later m
      · obtain ⟨c, hrun, hc1⟩ := hd.again u (d'.append rest) hses hlanes hc
        obtain ⟨c', hrun', hc2⟩ := hd'.again { u with auxTry := c } rest (hses.trans hd.ses.symm)
          (hlanes.trans hd.lanes.symm) fun k => by
            rcases hc1 with h | ⟨h, hsame⟩
            · exact h
            · exact h.trans ((hc k).trans hsame.symm)
        refine ⟨c', by rw [Held.append_assoc, act_bind, hrun]; exact hrun', ?_⟩
        rcases hc2 with rfl | ⟨rfl, hsame'⟩
        · exact .inl rfl
        · exact hc1.imp (fun h => h.trans hsame'.symm) fun h => ⟨h.1, hsame'.trans h.2⟩
    · cases h

theorem Resumes.ite (b : Prop) [Decidable b] {a a' : Act α} (ha : Resumes counted a)
    (ha' : Resumes counted a') : Resumes counted (if b then a else a') := by
  split
  · exact ha
  · exact ha'

theorem Transparent.ite (b : Prop) [Decidable b] {a a' : Act α} (ha : Transparent counted a)
    (ha' : Transparent counted a') : Transparent counted (if b then a else a') := by
  split
  · exact ha
  · exact ha'

/-- A piece that reads the session and the lane file only reads the same in each run. -/
theorem Resumes.get {f : State → Act α} (hf : ∀ s, Resumes counted (f s))
    (hread : ∀ s u : State, u.ses = s.ses → u.lanes = s.lanes → f u = f s) :
    Resumes counted (getState >>= f) := by
  intro s hs
  have hrun : ∀ u h, (getState >>= f) ⟨u, h⟩ = f u ⟨u, h⟩ := fun u h => act_bind _ _ ⟨u, h⟩
  have h := hf s s hs
  rw [hrun]
  show ResumesIn counted _ s (f s ⟨s, Held.empty⟩)
  rcases hf' : f s ⟨s, Held.empty⟩ with ⟨x, r⟩ | ⟨e | _, r⟩ <;> rw [hf'] at h
  · exact h
  · exact h
  · obtain ⟨d, hb⟩ := h
    refine ⟨d, hb.ses, hb.lanes, hb.held, fun m c hc => ?_⟩
    rw [hrun, hrun, hread s { dropRequests (r.s.later m) with auxTry := c } hb.ses hb.lanes,
      hread s (s.later m) rfl rfl]
    exact hb.resume m c hc

theorem Transparent.get {f : State → Act α} (hf : ∀ s, Transparent counted (f s))
    (hread : ∀ s u : State, u.ses = s.ses → u.lanes = s.lanes → f u = f s) :
    Transparent counted (getState >>= f) where
  resumes := Resumes.get (fun s => (hf s).resumes) hread
  replays := by
    intro s x r hs h
    have hrun : ∀ u h, (getState >>= f) ⟨u, h⟩ = f u ⟨u, h⟩ := fun u h => act_bind _ _ ⟨u, h⟩
    rw [hrun] at h
    obtain ⟨d, hd⟩ := (hf s).replays s x r hs h
    refine ⟨d, hd.replay, hd.ses, hd.lanes, hd.held, fun m => ?_, fun u rest hses hlanes hc => ?_⟩
    · rw [hrun, hread s (s.later m) rfl rfl]
      exact hd.later m
    · rw [hrun, hread s u hses hlanes]
      exact hd.again u rest hses hlanes hc

/-! ### Pieces without a transaction -/

theorem Transparent.pure (x : α) : Transparent counted (pure x : Act α) where
  resumes := fun _ hs => hs
  replays := by
    rintro s y r - h
    cases h
    exact ⟨Held.empty, rfl, rfl, rfl, by simp, fun _ => rfl,
      fun u rest _ _ _ => ⟨u.auxTry, by simp, .inr ⟨rfl, rfl⟩⟩⟩

theorem Transparent.raise (e : Exn) : Transparent counted (raise e : Act α) where
  resumes := fun _ hs => hs
  replays := fun _ _ _ _ h => by cases h

/-- Counting a retry is repeated as it was, from the same count (R43). -/
theorem countTry_transparent :
    Transparent True (modifyState fun s => { s with auxTry := s.auxTry + 1 }) where
  resumes := fun _ hs => hs
  replays := by
    rintro s x r - h
    cases h
    exact ⟨Held.empty, rfl, rfl, rfl, by simp, fun _ => rfl,
      fun u rest _ _ hc => ⟨s.auxTry + 1, by simp [hc trivial], .inl rfl⟩⟩

/-- The last line of an action. -/
theorem Resumes.modify {f : State → State} (hf : ∀ s, NoRequest s → NoRequest (f s)) :
    Resumes counted (modifyState f) :=
  fun s hs => hf s hs

/-- Once `aux_try` is reset its value before does not matter (R43). -/
theorem Transparent.resetTry {a : Act α} (ha : Transparent True a) :
    Transparent counted (modifyState (fun s => { s with auxTry := 0 }) >>= fun _ => a) := by
  have hrun : ∀ r : Run, (modifyState (fun s => { s with auxTry := 0 }) >>= fun _ => a) r =
      a { r with s.auxTry := 0 } := fun r => act_bind _ _ r
  constructor
  · intro s hs
    have h := ha.resumes { s with auxTry := 0 } hs
    rw [hrun]
    show ResumesIn counted _ s (a ⟨{ s with auxTry := 0 }, Held.empty⟩)
    rcases ha' : a ⟨{ s with auxTry := 0 }, Held.empty⟩ with ⟨x, r⟩ | ⟨e | _, r⟩ <;> rw [ha'] at h
    · exact h
    · exact h
    · obtain ⟨d, hb⟩ := h
      refine ⟨d, hb.ses, hb.lanes, hb.held, fun m c _ => ?_⟩
      rw [hrun, hrun]
      exact hb.resume m 0 (.inl rfl)
  · intro s x r hs h
    rw [hrun] at h
    obtain ⟨d, hd⟩ := ha.replays { s with auxTry := 0 } x r hs h
    refine ⟨d, hd.replay, hd.ses, hd.lanes, hd.held, fun m => ?_, fun u rest hses hlanes _ => ?_⟩
    · rw [hrun]
      exact hd.later m
    · obtain ⟨c, hc, hc'⟩ := hd.again { u with auxTry := 0 } rest hses hlanes fun _ => rfl
      exact ⟨c, by rw [hrun]; exact hc, .inl (hc'.elim id fun h => h.1.trans h.2.symm)⟩

/-! ### The ports -/

/-- A run that blocks on its first transaction has changed nothing but the request it drives. -/
theorem Blocked.at_once {a : Act α} {s : State} {o : Outputs} (hs : NoRequest s)
    (hd : o.done = s.out.done) : Blocked counted a s { s with out := o } Held.empty := by
  obtain ⟨st, cmd, ses, lanes, res, fc, try_, ⟨done, aux, phy, wait⟩, env, held, tick, tr⟩ := s
  obtain ⟨rfl, rfl, rfl⟩ : aux = none ∧ phy = none ∧ wait = none := hs
  obtain rfl : o.done = done := hd
  refine ⟨rfl, rfl, (Held.append_empty _).symm, fun m c hc => ?_⟩
  obtain rfl : c = try_ := hc.elim id fun h => h.2
  rfl

theorem auxRequest_transparent (q : AuxReq) : Transparent counted (auxRequest q) := by
  constructor
  · intro s hs
    cases h : s.env.auxRsps with
    | nil => rw [auxRequest_blocked q _ rfl h]; exact ⟨_, .at_once hs rfl⟩
    | cons a rest => rw [auxRequest_answered q _ a rest rfl h]; exact ⟨rfl, hs.2.1, hs.2.2⟩
  · intro s x r _ hr
    cases h : s.env.auxRsps with
    | nil => rw [auxRequest_blocked q _ rfl h] at hr; cases hr
    | cons a rest =>
      rw [auxRequest_answered q _ a rest rfl h] at hr
      cases hr
      refine ⟨⟨[x], 0, [], 0, []⟩, rfl, rfl, rfl, by simp [Held.append, emit], fun m => ?_,
        fun u rest _ _ _ => ⟨u.auxTry, rfl, .inr ⟨rfl, rfl⟩⟩⟩
      exact auxRequest_answered q _ x (rest ++ m.aux) rfl (congrArg (· ++ m.aux) h)

/-- Without an acknowledgement the block waits with the request outstanding (R299). -/
theorem phyOp_blocked (op : PhyOpc) (arg : BitVec 16) (r : Run) (hr : r.replay.acks = 0)
    (h : r.s.env.phyAcks = 0) :
    phyOp op arg r = .error .blocked { r with s.out.phyReq := some (phyReqWord op arg) } := by
  simp [phyOp, hr, h]

/-- Without an end of the wait the block waits with the duration on its port (R299). -/
theorem waitUs_blocked (us : BitVec 20) (r : Run) (hr : r.replay.waits = 0)
    (h : r.s.env.waitDones = 0) :
    waitUs us r = .error .blocked { r with s.out.waitReq := some us } := by
  simp [waitUs, hr, h]

theorem phyOp_transparent (op : PhyOpc) (arg : BitVec 16) : Transparent counted (phyOp op arg) := by
  constructor
  · intro s hs
    cases h : s.env.phyAcks with
    | zero => rw [phyOp_blocked op arg _ rfl h]; exact ⟨_, .at_once hs rfl⟩
    | succ n => rw [phyOp_answered op arg _ n rfl h]; exact ⟨hs.1, rfl, hs.2.2⟩
  · intro s x r _ hr
    cases h : s.env.phyAcks with
    | zero => rw [phyOp_blocked op arg _ rfl h] at hr; cases hr
    | succ n =>
      rw [phyOp_answered op arg _ n rfl h] at hr
      cases hr
      refine ⟨⟨[], 1, [], 0, []⟩, rfl, rfl, rfl, by simp [Held.append, emit, Nat.add_comm], fun m => ?_,
        fun u rest _ _ _ => ⟨u.auxTry, rfl, .inr ⟨rfl, rfl⟩⟩⟩
      refine phyOp_answered op arg _ (n + m.acks) rfl ?_
      show s.env.phyAcks + m.acks = _
      omega

theorem waitUs_transparent (us : BitVec 20) : Transparent counted (waitUs us) := by
  constructor
  · intro s hs
    cases h : s.env.waitDones with
    | zero => rw [waitUs_blocked us _ rfl h]; exact ⟨_, .at_once hs rfl⟩
    | succ n => rw [waitUs_answered us _ n rfl h]; exact ⟨hs.1, hs.2.1, rfl⟩
  · intro s x r _ hr
    cases h : s.env.waitDones with
    | zero => rw [waitUs_blocked us _ rfl h] at hr; cases hr
    | succ n =>
      rw [waitUs_answered us _ n rfl h] at hr
      cases hr
      refine ⟨⟨[], 0, [], 1, []⟩, rfl, rfl, rfl, by simp [Held.append, emit, Nat.add_comm], fun m => ?_,
        fun u rest _ _ _ => ⟨u.auxTry, rfl, .inr ⟨rfl, rfl⟩⟩⟩
      refine waitUs_answered us _ (n + m.waits) rfl ?_
      show s.env.waitDones + m.waits = _
      omega

/-- What is to come later does not change a sample (R73). -/
theorem nextPhySample_later (s : State) (m : Held) :
    nextPhySample (s.later m) = ((nextPhySample s).1, (nextPhySample s).2.later m) := by
  cases h : s.env.phySamples <;> simp [nextPhySample, State.later, Env.later, h]

theorem nextPhySample_held (s : State) : (nextPhySample s).2.held = s.held := by
  unfold nextPhySample
  split <;> rfl

theorem phyStatus_run (s : State) :
    phyStatus ⟨s, Held.empty⟩ = .ok (nextPhySample s).1
      ⟨emit (.phyRd (nextPhySample s).1) { (nextPhySample s).2 with
      held.samples := (nextPhySample s).2.held.samples ++ [(nextPhySample s).1] }, Held.empty⟩ := rfl

theorem phyStatus_transparent : Transparent counted phyStatus := by
  constructor
  · intro s hs
    obtain ⟨-, hout, -⟩ := nextPhySample_io s
    rw [phyStatus_run]
    show NoRequest (nextPhySample s).2
    rwa [NoRequest, hout]
  · intro s x r _ hr
    obtain ⟨hio, -, htry⟩ := nextPhySample_io s
    rw [phyStatus_run] at hr
    cases hr
    refine ⟨⟨[], 0, [(nextPhySample s).1], 0, []⟩, rfl, hio.ses, hio.lanes, ?_, fun m => ?_,
      fun u rest _ _ _ => ⟨u.auxTry, rfl, .inr ⟨rfl, htry⟩⟩⟩
    · simp [Held.append, emit, nextPhySample_held]
    · rw [phyStatus_run, nextPhySample_later]
      rfl

/-- What is to come later does not change a poll (R75). -/
theorem nextUnplug_later (s : State) (m : Held) :
    nextUnplug (s.later m) = ((nextUnplug s).1, (nextUnplug s).2.later m) := by
  cases h : s.env.unplugs <;> simp [nextUnplug, State.later, Env.later, h]

theorem nextUnplug_held (s : State) : (nextUnplug s).2.held = s.held := by
  unfold nextUnplug
  split <;> rfl

theorem pollUnplug_run (s : State) :
    pollUnplug ⟨s, Held.empty⟩ = .ok (nextUnplug s).1 ⟨emit (.poll (nextUnplug s).1) { (nextUnplug s).2 with
      held.polls := (nextUnplug s).2.held.polls ++ [(nextUnplug s).1] }, Held.empty⟩ := rfl

theorem pollUnplug_transparent : Transparent counted pollUnplug := by
  constructor
  · intro s hs
    obtain ⟨-, hout, -⟩ := nextUnplug_io s
    rw [pollUnplug_run]
    show NoRequest (nextUnplug s).2
    rwa [NoRequest, hout]
  · intro s x r _ hr
    obtain ⟨hio, -, htry⟩ := nextUnplug_io s
    rw [pollUnplug_run] at hr
    cases hr
    refine ⟨⟨[], 0, [], 0, [(nextUnplug s).1]⟩, rfl, hio.ses, hio.lanes, ?_, fun m => ?_,
      fun u rest _ _ _ => ⟨u.auxTry, rfl, .inr ⟨rfl, htry⟩⟩⟩
    · simp [Held.append, emit, nextUnplug_held]
    · rw [pollUnplug_run, nextUnplug_later]
      rfl

theorem pollPoint_transparent : Transparent counted pollPoint :=
  pollUnplug_transparent.bind fun _ => .ite _ (.raise _) (.pure _)

/-! ### The DPCD primitives -/

theorem auxLoop_transparent (P : Params) (q : AuxReq) (left : Nat) :
    Transparent True (auxLoop P q left) := by
  induction left with
  | zero => exact (auxRequest_transparent q).bind fun _ => .ite _ (.raise _) (.pure _)
  | succ n ih =>
    exact (auxRequest_transparent q).bind fun _ =>
      .ite _ (countTry_transparent.bind fun _ => (waitUs_transparent _).bind fun _ => ih) (.pure _)

theorem memRead_transparent (P : Params) (addr : Addr) (n : Nat) :
    Transparent counted (memRead P addr n) :=
  (Transparent.resetTry (auxLoop_transparent P _ _)).bind fun _ => .pure _

theorem memWrite_transparent (P : Params) (addr : Addr) (v : List Byte) :
    Transparent counted (memWrite P addr v) :=
  (Transparent.resetTry (auxLoop_transparent P _ _)).bind fun _ => .pure _

/-- A swallowed `AuxFail` does not change how a run resumes (R274). -/
theorem Resumes.swallow {a : Act Unit} (ha : Resumes counted a) : Resumes counted (swallowAuxFail a) := by
  intro s hs
  have h := ha s hs
  unfold swallowAuxFail
  rcases ha' : a ⟨s, Held.empty⟩ with ⟨x, r⟩ | ⟨e | _, r⟩ <;> rw [ha'] at h
  · exact h
  · cases e <;> exact h
  · obtain ⟨d, hb⟩ := h
    exact ⟨d, hb.ses, hb.lanes, hb.held, fun m c hc => by dsimp only; rw [hb.resume m c hc]⟩

/-- One more line after a piece that resumes. -/
theorem Resumes.then_modify {a : Act Unit} {f : State → State} (ha : Resumes counted a)
    (hf : ∀ s, NoRequest s → NoRequest (f s)) : Resumes counted (a >>= fun _ => modifyState f) := by
  intro s hs
  have h := ha s hs
  rw [act_bind]
  rcases ha' : a ⟨s, Held.empty⟩ with ⟨x, r⟩ | ⟨e | _, r⟩ <;> rw [ha'] at h
  · exact hf _ h
  · exact h
  · obtain ⟨d, hb⟩ := h
    exact ⟨d, hb.ses, hb.lanes, hb.held, fun m c hc => by rw [act_bind, hb.resume m c hc, act_bind]⟩

/-! ### Actions -/

/-- An action whose run can be resumed, run as a step: from the state that waits, once the answers have
come, it ends as from the first state with the answers at hand. -/
def WaitsTransparently (a : Act Unit) : Prop :=
  ∀ s t, s.held = Held.empty → runAction a s = .next t → t.waiting = true →
    ∀ m, runAction a (t.later m) = runAction a (s.later m)

theorem noRequest_takeException (e : Exn) {s : State} (h : NoRequest s) :
    NoRequest (takeException e s) := by
  rcases takeException_cases e s with
    ⟨-, h'⟩ | ⟨-, h'⟩ | ⟨-, h'⟩ | ⟨_, -, -, h'⟩ | ⟨_, -, -, h'⟩ | ⟨-, h'⟩ <;>
    rw [h'] <;> exact h

/-- An action after which the block waits has blocked. -/
theorem Resumes.blocked {a : Act Unit} (ha : Resumes counted a) {s t : State} (hs : s.held = Held.empty)
    (h : runAction a s = .next t) (hw : t.waiting = true) :
    ∃ d, Blocked counted a (dropRequests s) t d := by
  have hres := ha (dropRequests s) ⟨rfl, rfl, rfl⟩
  have hn : ¬ NoRequest t := fun hn => by rw [hn.not_waiting] at hw; cases hw
  rw [← hs] at hres
  rcases runAction_cases a s with ⟨r, hr, hrun⟩ | ⟨e, r, hr, hrun⟩ | ⟨r, hr, hrun⟩ <;>
    rw [hr] at hres <;> rw [hrun] at h <;> cases h
  · exact absurd hres hn
  · exact absurd (noRequest_takeException e hres) hn
  · exact hres

theorem Resumes.waitsTransparently {a : Act Unit} (ha : Resumes False a) : WaitsTransparently a := by
  intro s t hs h hw m
  obtain ⟨d, hb⟩ := ha.blocked hs h hw
  have hheld : t.held = d := by rw [hb.held, dropRequests_held, hs, Held.empty_append]
  have hresume := hb.resume m t.auxTry (.inr ⟨id, rfl⟩)
  have hrun : a ⟨dropRequests (t.later m), (t.later m).held⟩ =
      a ⟨dropRequests (s.later m), (s.later m).held⟩ := by
    rw [show (t.later m).held = d from hheld, show (s.later m).held = Held.empty from hs]
    exact hresume
  unfold runAction
  rw [hrun]

/-- The first line of an action that writes `phase` (R29). -/
theorem runAction_phase (p : Phase) (a : Act Unit) (s : State) :
    runAction (modifyState (setPhase p) >>= fun _ => a) s = runAction a (setPhase p s) := by
  unfold runAction
  rw [act_bind]
  rfl

/-- The first line of an action that writes `phase`: it writes the same when the action is run again. -/
theorem Resumes.waitsTransparently_phase {a : Act Unit} (ha : Resumes False a) (p : Phase) :
    WaitsTransparently (modifyState (setPhase p) >>= fun _ => a) := by
  intro s t hs h hw m
  rw [runAction_phase] at h
  obtain ⟨d, hb⟩ := ha.blocked (s := setPhase p s) hs h hw
  have hp : t.ses.phase = p := congrArg Session.phase hb.ses
  have ht : setPhase p (t.later m) = t.later m := by rw [← hp]; rfl
  rw [runAction_phase, runAction_phase, ht]
  exact ha.waitsTransparently (setPhase p s) t hs h hw m

theorem capNeg_waits : WaitsTransparently (capNegAct Config.hw) := by
  refine Resumes.waitsTransparently_phase ((memRead_transparent _ _ _).bind_resumes fun c => ?_) _
  intro s hs
  rw [act_bind]
  simp only [act_modifyState, act_ite, act_raise]
  split <;> exact hs

theorem phyProgram_transparent (s : State) : Transparent counted (phyProgram s) := by
  have tail : Transparent counted (do
      phyOp .reset (argOfBit false)
      phyOp .postInit 0
      phyOp .waitPllLock 0) :=
    (phyOp_transparent _ _).bind fun _ => (phyOp_transparent _ _).bind fun _ => phyOp_transparent _ _
  unfold phyProgram
  refine (phyOp_transparent _ _).bind fun _ => (phyOp_transparent _ _).bind fun _ =>
    (phyOp_transparent _ _).bind fun _ => (phyOp_transparent _ _).bind fun _ => ?_
  split
  · exact (phyOp_transparent _ _).bind fun _ => tail
  · exact tail

/-- The link configuration write reads `cur_lanes` and `cap_efc` only (R163). -/
theorem writeLinkConfig_transparent (P : Params) (rate : RateIdx) :
    Transparent counted (writeLinkConfig P rate) :=
  .get (fun _ => memWrite_transparent _ _ _) fun s u hses _ => by rw [hses]

theorem phySetup_waits : WaitsTransparently (phySetupAct Config.hw) := by
  refine Resumes.waitsTransparently_phase (pollPoint_transparent.bind_resumes fun _ =>
    phyStatus_transparent.bind_resumes fun p => Resumes.get (fun s => ?_) ?_) _
  · have tail : Resumes False (do
        writeLinkConfig Config.hw s.ses.curRate
        phySetPatternOp .tps1
        writePatternByte Config.hw .tps1
        modifyState (goTo .clockRecovery)) :=
      (writeLinkConfig_transparent _ _).bind_resumes fun _ => (phyOp_transparent _ _).bind_resumes fun _ =>
        (memWrite_transparent _ _ _).bind_resumes fun _ => .modify fun _ h => h
    split
    · exact (phyProgram_transparent s).bind_resumes fun _ => tail
    · exact tail
  · intro s u hses _
    unfold phyProgram
    rw [hses]

/-- `ProgramLanes` reads the lane file only (R235). -/
theorem programLanes_transparent (P : Params) : Transparent counted (programLanes P) :=
  .get (fun _ => (phyOp_transparent _ _).bind fun _ => memWrite_transparent _ _ _)
    fun s u _ hlanes => by rw [hlanes]

theorem waitReadInterval_transparent (P : Params) : Transparent counted (waitReadInterval P) :=
  .get (fun _ => waitUs_transparent _) fun s u hses _ => by rw [hses]

/-- The first lines of a training round (R170, R197). -/
theorem Resumes.round {f : List Byte → Act Unit} {P : Params} {addr : Addr} {n : Nat}
    (hf : ∀ b, Resumes False (f b)) :
    Resumes False (do
      pollPoint
      programLanes P
      waitReadInterval P
      let b ← memRead P addr n
      f b) :=
  pollPoint_transparent.bind_resumes fun _ => (programLanes_transparent P).bind_resumes fun _ =>
    (waitReadInterval_transparent P).bind_resumes fun _ => (memRead_transparent _ _ _).bind_resumes hf

/-- Adopting a request drives nothing (R234). -/
theorem AdjustEnd.noRequest {q : AdjustReq} {u v : State} (h : AdjustEnd q u v) (hu : NoRequest u) :
    NoRequest v := by
  cases h <;> exact hu

theorem clockRecovery_waits : WaitsTransparently (clockRecoveryAct Config.hw) := by
  refine Resumes.waitsTransparently_phase (Resumes.round fun b => Resumes.get (fun s => ?_) ?_) _
  · refine .ite _ (.modify fun _ h => h) (.ite _ (.modify fun _ h => h) ?_)
    exact (memRead_transparent _ _ _).bind_resumes fun a =>
      .modify fun _ h => (crAfterAdjust_end _ _).noRequest h
  · intro s u hses hlanes
    rw [hses, hlanes]

theorem equalizationSetup_waits : WaitsTransparently (equalizationSetupAct Config.hw) := by
  refine Resumes.waitsTransparently_phase (Resumes.get (fun s => ?_) ?_) _
  · exact (phyOp_transparent _ _).bind_resumes fun _ => (memWrite_transparent _ _ _).bind_resumes fun _ =>
      .modify fun _ h => h
  · intro s u hses _
    rw [hses]

theorem equalization_waits : WaitsTransparently (equalizationAct Config.hw) := by
  refine Resumes.waitsTransparently_phase (Resumes.round fun b => Resumes.get (fun s => ?_) ?_) _
  · refine .ite _ (.modify fun _ h => h) (.ite _ (.modify fun _ h => h)
      (.ite _ (Transparent.raise _).resumes ?_))
    exact (memRead_transparent _ _ _).bind_resumes fun a => .modify fun _ h => h
  · intro s u hses _
    rw [hses]

theorem success_waits : WaitsTransparently (successAct Config.hw) :=
  Resumes.waitsTransparently ((phyOp_transparent _ _).bind_resumes fun _ =>
    (memWrite_transparent _ _ _).bind_resumes fun _ => .modify fun _ h => h)

theorem failed_waits : WaitsTransparently (failedAct Config.hw) :=
  Resumes.waitsTransparently ((memWrite_transparent _ _ _).resumes.swallow.then_modify fun _ h => h)

theorem healthCheck_waits : WaitsTransparently (healthCheckAct Config.hw) := by
  refine Resumes.waitsTransparently_phase ((memRead_transparent _ _ _).bind_resumes fun b =>
    (memRead_transparent _ _ _).bind_resumes fun t => phyStatus_transparent.bind_resumes fun p => ?_) _
  exact .modify fun _ h => h

/-! ### The step -/

/-- The action of a state (R21). -/
def stateAct : Fsm → Act Unit
  | .idle => pure ()
  | .capNeg => capNegAct Config.hw
  | .phySetup => phySetupAct Config.hw
  | .clockRecovery => clockRecoveryAct Config.hw
  | .reduceLinkRate => reduceLinkRateAct Config.hw
  | .equalizationSetup => equalizationSetupAct Config.hw
  | .equalization => equalizationAct Config.hw
  | .success => successAct Config.hw
  | .failed => failedAct Config.hw
  | .linkUnplugged => linkUnpluggedAct
  | .healthCheck => healthCheckAct Config.hw

/-- A state instruction runs the action of its state. -/
theorem exec_stateInstr_eq (x : Fsm) (s : State) :
    exec (stateInstr x) s = runAction (stateAct x) (goTo x s) := by
  cases x <;> rfl

theorem reduceLinkRate_waits : WaitsTransparently (reduceLinkRateAct Config.hw) := by
  refine Resumes.waitsTransparently (Resumes.get (fun s => ?_) fun s u hses _ => by rw [hses])
  cases nextRate Config.hw s.ses.curRate with
  | none => exact (Transparent.raise _).resumes
  | some r => exact .modify fun _ h => h

theorem stateAct_waits (x : Fsm) : WaitsTransparently (stateAct x) := by
  cases x with
  | idle => exact (Transparent.pure ()).resumes.waitsTransparently
  | capNeg => exact capNeg_waits
  | phySetup => exact phySetup_waits
  | clockRecovery => exact clockRecovery_waits
  | reduceLinkRate => exact reduceLinkRate_waits
  | equalizationSetup => exact equalizationSetup_waits
  | equalization => exact equalization_waits
  | success => exact success_waits
  | failed => exact failed_waits
  | linkUnplugged => exact Resumes.waitsTransparently (.modify fun _ h => h)
  | healthCheck => exact healthCheck_waits

theorem afterFetch_busy {s : State} (hs : s.st ≠ .idle) (hd : s.out.done = false) : afterFetch s = s := by
  unfold afterFetch
  rw [if_neg hs, ← hd]

/-- The step of a busy block, answers being to come. -/
theorem step_later {s : State} (hr : s.env.rstN = true) (hs : s.st ≠ .idle) (m : Held) :
    step (s.later m) = runAction (stateAct s.st) ((afterFetch s).later m) := by
  have hfetch : goTo s.st (afterFetch (s.later m)) = (afterFetch s).later m := by
    simp [goTo, afterFetch, State.later, Env.later, hs]
  rw [step_of_fetch (s := s.later m) hr (fetch_state (.inl hs)), exec_stateInstr_eq]
  exact congrArg _ hfetch

/-- The step of a busy block. -/
theorem step_busy {s : State} (hr : s.env.rstN = true) (hs : s.st ≠ .idle) :
    step s = runAction (stateAct s.st) (afterFetch s) := by
  rw [step_of_fetch hr (fetch_state (.inl hs)), exec_stateInstr_eq]
  rfl

/-- Settles O57: a waiting block is where its action blocked, and the action of each state can be
resumed. -/
theorem waitingIsTransparent : Obligations.WaitingIsTransparent := by
  intro s t aux acks waits hr hs hheld h hw
  obtain ⟨hio, -⟩ : _ ∧ Unanswered t := by
    cases step_cases h with
    | resets hr' _ => rw [hr] at hr'; cases hr'
    | accepts w _ hs' _ => exact absurd hs' hs
    | idles _ hs' _ => exact absurd hs' hs
    | acts _ _ hact => exact hact.unanswered hw
  have hst : t.st = s.st := hio.st
  have hfetch : afterFetch t = t := afterFetch_busy (hst ▸ hs) hio.done
  let m : Held := ⟨aux, acks, [], waits, []⟩
  rw [step_busy hr hs] at h
  calc step (t.later m)
      = runAction (stateAct s.st) (t.later m) := by
        rw [step_later (hio.rstN.trans hr) (hst ▸ hs), hst, hfetch]
    _ = runAction (stateAct s.st) ((afterFetch s).later m) :=
        stateAct_waits s.st (afterFetch s) t hheld h hw m
    _ = step (s.later m) := (step_later hr hs m).symm

end Sys2Proof.Machine
end

section
/-! PROOF. What an action does with given answers at hand, exactly: `Ends` is kept by sequencing, so that the
run of an action is put together from one rule per port (R65, R72 to R75) and per DPCD primitive (R66, R67).
From it the rows of PHYREQ and AUXREQ: O37, O38, O39. -/

namespace Sys2Proof.Machine

open Sys2Proof

/-! ### Runs -/

/-- The state `s` after the answers `d` were taken and the events `evs` made: the inputs `e` are left, and
`aux_try` is `c`. -/
def State.via (s : State) (e : Env) (d : Held) (evs : List Event) (c : BitVec 3) : State :=
  { s with env := e, held := s.held.append d, trace := s.trace ++ evs, auxTry := c }

theorem State.via_via (s : State) (e e' : Env) (d d' : Held) (evs evs' : List Event) (c c' : BitVec 3) :
    (s.via e d evs c).via e' d' evs' c' = s.via e' (d.append d') (evs ++ evs') c' := by
  simp [State.via, Held.append_assoc]

theorem NoRequest.via {s : State} (h : NoRequest s) (e : Env) (d : Held) (evs : List Event)
    (c : BitVec 3) : NoRequest (s.via e d evs c) := h

/-- Answers that come one after the other. -/
theorem Env.before_append (e : Env) (d d' : Held) : e.before (d.append d') = (e.before d').before d := by
  simp [Env.before, Held.append, Nat.add_assoc]

/-- With the answers `d` at hand and the inputs `e` after them, the run of `a` from `s` takes exactly `d`,
makes the events `evs`, leaves `c` in `aux_try` and ends as `out` says. -/
def Ends {α : Type} (a : Act α) (s : State) (e : Env) (out : Run → EStateM.Result Stop Run α) (d : Held)
    (evs : List Event) (c : BitVec 3) : Prop :=
  NoRequest s → s.env = e.before d → a ⟨s, Held.empty⟩ = out ⟨s.via e d evs c, Held.empty⟩

/-- The run raises an exception. -/
abbrev raisesIn {α : Type} (x : Exn) : Run → EStateM.Result Stop Run α := .error (.raised x)

/-- The run blocks on a wait (R74). -/
abbrev waitsIn {α : Type} (us : BitVec 20) : Run → EStateM.Result Stop Run α :=
  fun r => .error .blocked { r with s.out.waitReq := some us }

section Sequencing

variable {α β : Type} {s : State} {e : Env} {d d' : Held} {evs evs' : List Event} {c c' : BitVec 3}

theorem Ends.bind {a : Act α} {f : α → Act β} {x : α} {out : Run → EStateM.Result Stop Run β}
    (ha : Ends a s (e.before d') (.ok x) d evs c)
    (hf : Ends (f x) (s.via (e.before d') d evs c) e out d' evs' c') :
    Ends (a >>= f) s e out (d.append d') (evs ++ evs') c' := by
  intro hs henv
  rw [Env.before_append] at henv
  rw [act_bind, ha hs henv, ← State.via_via]
  exact hf (hs.via _ _ _ _) rfl

theorem Ends.bind_raises {a : Act α} {f : α → Act β} {x : Exn} (ha : Ends a s e (raisesIn x) d evs c) :
    Ends (a >>= f) s e (raisesIn x) d evs c := by
  intro hs henv
  rw [act_bind, ha hs henv]

theorem Ends.get {f : State → Act α} {out : Run → EStateM.Result Stop Run α}
    (hf : Ends (f s) s e out d evs c) : Ends (getState >>= f) s e out d evs c :=
  fun hs henv => (act_bind _ _ _).trans (hf hs henv)

/-- The same run, its answers and events written in another way. -/
theorem Ends.cast {a : Act α} {out : Run → EStateM.Result Stop Run α} (h : Ends a s e out d evs c)
    (hd : d = d') (hevs : evs = evs') (hc : c = c') : Ends a s e out d' evs' c' := by
  subst hd hevs hc
  exact h

/-- Nothing taken and nothing made is no change. -/
theorem State.via_nothing (s : State) : s.via s.env Held.empty [] s.auxTry = s := by
  simp [State.via]

theorem Env.before_empty (e : Env) : e.before Held.empty = e := by
  simp [Env.before, Held.empty]

theorem Ends.pure (x : α) : Ends (pure x : Act α) s e (.ok x) Held.empty [] s.auxTry := by
  intro _ henv
  rw [Env.before_empty] at henv
  rw [← henv, State.via_nothing]
  rfl

end Sequencing

/-! ### The ports -/

section Ports

variable {s : State} {e : Env}

/-- Where no request is driven, dropping one changes nothing. -/
theorem NoRequest.drop (h : NoRequest s) :
    { s.out with auxReq := none } = s.out ∧ { s.out with phyReq := none } = s.out ∧
      { s.out with waitReq := none } = s.out := by
  obtain ⟨ha, hp, hw⟩ := h
  exact ⟨by rw [← ha], by rw [← hp], by rw [← hw]⟩

theorem auxRequest_ends (q : AuxReq) (a : AuxRsp) :
    Ends (auxRequest q) s e (.ok a) ⟨[a], 0, [], 0, []⟩ [q.event a] s.auxTry := by
  intro hs henv
  have hrsps : s.env.auxRsps = a :: e.auxRsps := by rw [henv]; rfl
  rw [auxRequest_answered q _ a e.auxRsps rfl hrsps]
  simp [State.via, Held.append, emit, henv, Env.before, hs.drop]

theorem phyOp_ends (op : PhyOpc) (arg : BitVec 16) :
    Ends (phyOp op arg) s e (.ok ()) ⟨[], 1, [], 0, []⟩ [.phy op arg] s.auxTry := by
  intro hs henv
  have hacks : s.env.phyAcks = e.phyAcks + 1 := by rw [henv]; rfl
  rw [phyOp_answered op arg _ e.phyAcks rfl hacks]
  simp [State.via, Held.append, emit, henv, Env.before, hs.drop, Nat.add_comm]

theorem waitUs_ends (us : BitVec 20) :
    Ends (waitUs us) s e (.ok ()) ⟨[], 0, [], 1, []⟩ [.wait us] s.auxTry := by
  intro hs henv
  have hdones : s.env.waitDones = e.waitDones + 1 := by rw [henv]; rfl
  rw [waitUs_answered us _ e.waitDones rfl hdones]
  simp [State.via, Held.append, emit, henv, Env.before, hs.drop, Nat.add_comm]

/-- A wait without its end blocks with its duration on the port (R74, R110). -/
theorem waitUs_ends_waiting (us : BitVec 20) (he : e.waitDones = 0) :
    Ends (waitUs us) s e (waitsIn us) Held.empty [] s.auxTry := by
  intro _ henv
  rw [Env.before_empty] at henv
  rw [← henv, State.via_nothing]
  exact waitUs_blocked us _ rfl (henv ▸ he)

theorem pollUnplug_ends (b : Bool) :
    Ends pollUnplug s e (.ok b) ⟨[], 0, [], 0, [b]⟩ [.poll b] s.auxTry := by
  intro hs henv
  have hpolls : s.env.unplugs = b :: e.unplugs := by rw [henv]; rfl
  rw [pollUnplug_answered _ b e.unplugs rfl hpolls]
  simp [State.via, Held.append, emit, henv, Env.before]

theorem phyStatus_ends (p : PhySample) :
    Ends phyStatus s e (.ok p) ⟨[], 0, [p], 0, []⟩ [.phyRd p] s.auxTry := by
  intro hs henv
  have hsamples : s.env.phySamples = p :: e.phySamples := by rw [henv]; rfl
  rw [phyStatus_answered _ p e.phySamples rfl hsamples]
  simp [State.via, Held.append, emit, henv, Env.before]

/-- A poll point at which the sink is plugged in (R268). -/
theorem pollPoint_ends : Ends pollPoint s e (.ok ()) ⟨[], 0, [], 0, [false]⟩ [.poll false] s.auxTry := by
  intro hs henv
  rw [pollPoint, act_bind, pollUnplug_ends false hs henv]
  rfl

/-! ### The DPCD primitives -/

/-- Writing `aux_try` (R43). -/
theorem setTry_ends (f : State → BitVec 3) :
    Ends (modifyState fun s => { s with auxTry := f s }) s e (.ok ()) Held.empty [] (f s) := by
  intro _ henv
  rw [Env.before_empty] at henv
  subst henv
  simp [State.via]

/-- The answers of the attempts `x`: their responses and the ends of their back-off waits. -/
def Attempts.answers (x : Attempts) : Held := ⟨x.responses, 0, [], x.waits, []⟩

/-- With the answers of `x` at hand, its attempts can be made. -/
theorem Attempts.ready {x : Attempts} (hs : NoRequest s) (henv : s.env = e.before x.answers) :
    Ready x e.auxRsps e.waitDones ⟨s, Held.empty⟩ where
  aux := rfl
  waits := rfl
  auxReq := hs.1
  waitReq := hs.2.2
  auxRsps := by rw [henv]; rfl
  waitDones := by rw [henv]; exact Nat.add_comm _ _

theorem afterAttempts_eq_via {x : Attempts} {evs : List Event} (hs : NoRequest s)
    (henv : s.env = e.before x.answers) :
    afterAttempts x evs e.auxRsps e.waitDones s = s.via e x.answers evs x.tries := by
  have hout : { s.out with auxReq := none, waitReq := none } = s.out := by
    rw [← hs.1, ← hs.2.2]
  simp [afterAttempts, State.via, Held.append, Attempts.answers, henv, Env.before, hout, Nat.add_comm]

theorem memRead_ends {x : Attempts} (addr : Addr) (n : Nat) (hx : x.answered = true) :
    Ends (memRead Config.hw addr n) s e (.ok (x.bytes n)) x.answers (x.readEvents addr n) x.tries := by
  intro hs henv
  rw [memRead_answered addr n hx (x.ready hs henv), afterAttempts_eq_via hs henv]

theorem memWrite_ends {x : Attempts} (addr : Addr) (v : List Byte) (hx : x.answered = true) :
    Ends (memWrite Config.hw addr v) s e (.ok ()) x.answers (x.writeEvents addr v) x.tries := by
  intro hs henv
  rw [memWrite_answered addr v hx (x.ready hs henv), afterAttempts_eq_via hs henv]

/-- Five failed attempts leave 4 in `aux_try` (R43, R66). -/
theorem Attempts.tries_failed {x : Attempts} (hx : x.failed = true) : x.tries = 4 := by
  rw [Attempts.tries, (x.failed_iff.mp hx).1]
  rfl

/-- Five failed attempts make four back-off waits (R66). -/
theorem Attempts.waits_failed {x : Attempts} (hx : x.failed = true) : x.waits = 4 :=
  (x.failed_iff.mp hx).1

theorem memRead_raises {x : Attempts} (addr : Addr) (n : Nat) (hx : x.failed = true) :
    Ends (memRead Config.hw addr n) s e (raisesIn (.auxFail addr)) x.answers (x.readEvents addr n) 4 := by
  intro hs henv
  rw [memRead_failed addr n hx (x.ready hs henv), afterAttempts_eq_via hs henv, x.tries_failed hx]

theorem memWrite_raises {x : Attempts} (addr : Addr) (v : List Byte) (hx : x.failed = true) :
    Ends (memWrite Config.hw addr v) s e (raisesIn (.auxFail addr)) x.answers (x.writeEvents addr v) 4 := by
  intro hs henv
  rw [memWrite_failed addr v hx (x.ready hs henv), afterAttempts_eq_via hs henv, x.tries_failed hx]

end Ports

/-! ### The run of an action -/

section Runs

variable {a : Act Unit} {s : State} {e : Env} {d : Held} {evs : List Event} {c : BitVec 3}

/-- A run of an action with all its answers at hand, nothing being held before. -/
theorem Ends.run {out : Run → EStateM.Result Stop Run Unit} (h : Ends a (dropRequests s) e out d evs c)
    (hs : s.held = Held.empty) (he : s.env = e.before d) :
    a ⟨dropRequests s, s.held⟩ =
      out ⟨{ s.afterPorts e evs with auxTry := c, held := d }, Held.empty⟩ := by
  rw [hs, h ⟨rfl, rfl, rfl⟩ he]
  simp [State.via, State.afterPorts, hs]

theorem Ends.runAction_ok (h : Ends a (dropRequests s) e (.ok ()) d evs c) (hs : s.held = Held.empty)
    (he : s.env = e.before d) : runAction a s = .next { s.afterPorts e evs with auxTry := c } := by
  unfold runAction
  rw [h.run hs he]
  simp [endAction, State.afterPorts, hs]

/-- An exception reads and writes none of the held answers, and ends the action (R271). -/
theorem endAction_takeException (x : Exn) {s : State} (hs : s.held = Held.empty) (d : Held) :
    endAction (takeException x { s with held := d }) = takeException x s := by
  have hsame : { s with held := Held.empty } = s := by rw [← hs]
  conv_rhs => rw [← hsame]
  cases x with
  | auxFail addr =>
    unfold takeException
    dsimp only
    split <;> rfl
  | _ => rfl

theorem Ends.runAction_raises {x : Exn} (h : Ends a (dropRequests s) e (raisesIn x) d evs c)
    (hs : s.held = Held.empty) (he : s.env = e.before d) :
    runAction a s = .next (takeException x { s.afterPorts e evs with auxTry := c }) := by
  unfold runAction
  rw [h.run hs he]
  exact congrArg Host.Outcome.next
    (endAction_takeException (s := { s.afterPorts e evs with auxTry := c }) x hs d)

theorem Ends.runAction_waits {us : BitVec 20} (h : Ends a (dropRequests s) e (waitsIn us) d evs c)
    (hs : s.held = Held.empty) (he : s.env = e.before d) :
    runAction a s = .next { s.afterPorts e evs with
      auxTry := c, held := d, out.waitReq := some us } := by
  unfold runAction
  rw [h.run hs he]

end Runs

/-! ### Rows of PHYREQ and AUXREQ -/

/-- A PHY operation, acknowledged, makes its event and changes no register (R72). -/
theorem runAction_phyOp {s : State} {e : Env} (op : PhyOpc) (arg : BitVec 16) (hs : s.held = Held.empty)
    (he : s.env = e.before ⟨[], 1, [], 0, []⟩) :
    runAction (phyOp op arg) s = .next (s.afterPorts e [.phy op arg]) :=
  (phyOp_ends op arg).runAction_ok hs he

/-- The one-bit argument (R108). -/
theorem argOfBit_eq (a : Bool) : argOfBit a = if a then 1 else 0 := by
  cases a <;> rfl

/-- Settles O37: each row is one PHY operation, and its argument is that of R108. -/
theorem phyRowsAcknowledged : Obligations.PhyRowsAcknowledged := by
  intro s e hs he
  have hrow : ∀ op arg, runAction (phyOp op arg) s = .next (s.afterPorts e [.phy op arg]) :=
    fun op arg => runAction_phyOp op arg hs he
  refine ⟨fun a => ?_, fun r => ?_, fun n => ?_, hrow _ _, hrow _ _, hrow _ _, fun sw pe => ?_,
    fun p => ?_, fun a => ?_⟩
  · rw [← argOfBit_eq]; exact hrow _ _
  · rw [show 0#14 ++ r = r.setWidth 16 by revert r; decide]; exact hrow _ _
  · rw [show 0#13 ++ n = n.setWidth 16 by revert n; decide]; exact hrow _ _
  · exact ⟨voltPeArg sw pe, voltPeArg_fields sw pe, hrow _ _⟩
  · rw [show 0#13 ++ p.code = p.code.setWidth 16 by cases p <;> rfl]; exact hrow _ _
  · rw [← argOfBit_eq]; exact hrow _ _

/-- Settles O38: the row is one read. -/
theorem auxReadRetries : Obligations.AuxReadRetries := by
  intro addr len s e x hs hx he
  refine Ends.runAction_ok (d := x.answers) ?_ hs he
  exact ((memRead_ends addr len.toNat hx).bind (.pure ())).cast (Held.append_empty _) (List.append_nil _) rfl

/-- Settles O39: the row is one write of the low bytes of the data. -/
theorem auxWriteRetries : Obligations.AuxWriteRetries := by
  intro addr len data s e x hs hx he
  exact (memWrite_ends addr (dataBytes data len.toNat) hx).runAction_ok hs he

end Sys2Proof.Machine
end

section
/-! PROOF. The fifth failed attempt of an AUX transaction, in every action of a `TRAIN` (R66, R67, R263):
O18, O40. -/

namespace Sys2Proof.Machine

open Sys2Proof

theorem Attempts.answers_failed {x : Attempts} (hx : x.failed = true) :
    x.answers = ⟨x.responses, 0, [], 4, []⟩ := by
  rw [Attempts.answers, x.waits_failed hx]

/-! ### `AuxFail` -/

section AuxFail

variable {a : Act Unit} {s : State} {e : Env} {d : Held} {evs : List Event} {addr : Addr}

/-- Outside `HealthCheck` a raised `AuxFail` leads to `Failed` and changes no other register (R263). -/
theorem Ends.runAction_auxFails (h : Ends a (dropRequests s) e (raisesIn (.auxFail addr)) d evs 4)
    (hs : s.held = Held.empty) (he : s.env = e.before d) (hst : s.st ≠ .healthCheck) :
    runAction a s = .next (s.afterAuxFail e evs) := by
  rw [h.runAction_raises hs he, takeException]
  exact congrArg Host.Outcome.next (if_neg hst)

/-- In `HealthCheck` it completes the command (R263). -/
theorem Ends.runAction_checkFails (h : Ends a (dropRequests s) e (raisesIn (.auxFail addr)) d evs 4)
    (hs : s.held = Held.empty) (he : s.env = e.before d) (hst : s.st = .healthCheck) :
    runAction a s =
      .next (completed (s.result .auxTransportError) { s.afterPorts e evs with auxTry := 4 }) := by
  rw [h.runAction_raises hs he, takeException]
  exact congrArg Host.Outcome.next (if_pos hst)

/-- The same after the first line of an action that writes `phase` (R29, R263). -/
theorem Ends.runState_auxFails {x : Fsm} {p : Phase}
    (h : Ends a (setPhase p (atStart x s)) e (raisesIn (.auxFail addr)) d evs 4)
    (hs : s.held = Held.empty) (he : s.env = e.before d) (hx : x ≠ .healthCheck) :
    runState x (modifyState (setPhase p) >>= fun _ => a) s =
      .next { s.afterAuxFail e evs with ses.phase := p } := by
  rw [runState, runAction_phase]
  exact Ends.runAction_auxFails (s := setPhase p (goTo x s)) h hs he hx

end AuxFail

/-- Settles O18: the one read of `CapNeg` fails. -/
theorem capNegAuxFails : Obligations.CapNegAuxFails := by
  intro s e x hs hx he
  rw [← x.answers_failed hx] at he
  exact Ends.runState_auxFails (memRead_raises _ _ hx).bind_raises hs he (by decide)

/-! ### PhySetup -/

section PhySetup

variable {u : State} {e : Env} {d : Held} {evs : List Event} {c : BitVec 3}
  {out : Run → EStateM.Result Stop Run Unit}

/-- The PHY block makes its operations, one acknowledgement each (R162). -/
theorem phyProgram_ends (s : State) :
    Ends (phyProgram s) u e (.ok ()) ⟨[], (phyBlockEvents s).length, [], 0, []⟩ (phyBlockEvents s)
      u.auxTry := by
  have tail : ∀ v : State, Ends (do
      phyOp .reset (argOfBit false)
      phyOp .postInit 0
      phyOp .waitPllLock 0) v e (.ok ()) ⟨[], 3, [], 0, []⟩
      [.phy .reset 0, .phy .postInit 0, .phy .waitPllLock 0] v.auxTry := fun _ =>
    ((phyOp_ends _ _).bind ((phyOp_ends _ _).bind (phyOp_ends _ _))).cast rfl rfl rfl
  unfold phyProgram phyBlockEvents
  by_cases h : s.ses.capEfc = true
  · simp only [h, if_true]
    exact ((phyOp_ends _ _).bind ((phyOp_ends _ _).bind ((phyOp_ends _ _).bind ((phyOp_ends _ _).bind
      ((phyOp_ends _ _).bind (tail _)))))).cast rfl rfl rfl
  · simp only [h]
    exact ((phyOp_ends _ _).bind ((phyOp_ends _ _).bind ((phyOp_ends _ _).bind ((phyOp_ends _ _).bind
      (tail _))))).cast rfl rfl rfl

/-- The reprogramming condition of R161. -/
theorem phyDiffers_iff (p : PhySample) (r : RateIdx) (n : LaneCount) :
    phyDiffers Config.hw p r n = true ↔
      p.rateCode ≠ rateCode Config.hw r ∨ p.lanes ≠ n ∨ p.pipeActive = false := by
  simp [phyDiffers, or_assoc]

/-- The lines of `PhySetup` after its PHY block (R163, R164). -/
def phySetupLink (rate : RateIdx) : Act Unit := do
  writeLinkConfig Config.hw rate
  phySetPatternOp .tps1
  writePatternByte Config.hw .tps1
  modifyState (goTo .clockRecovery)

/-- The events of `PhySetup` before its first write (R160 to R162). -/
def phySetupStart (s : State) (p : PhySample) : List Event :=
  [.poll false, .phyRd p] ++ phySetupBlock s p

/-- `PhySetup` makes the PHY block exactly when the sample differs from the target (R161, R162). -/
theorem phyBlock_ends (p : PhySample) {b : Act Unit}
    (hb : ∀ v : State, v.ses = u.ses → Ends b v e out d evs c) :
    Ends (if phyDiffers Config.hw p u.ses.curRate u.ses.curLanes then phyProgram u >>= fun _ => b else b)
      u e out (Held.append ⟨[], (phySetupBlock u p).length, [], 0, []⟩ d) (phySetupBlock u p ++ evs) c := by
  by_cases hd : phyDiffers Config.hw p u.ses.curRate u.ses.curLanes = true
  · have hblock : phySetupBlock u p = phyBlockEvents u := if_pos ((phyDiffers_iff _ _ _).mp hd)
    rw [if_pos hd, hblock]
    exact (phyProgram_ends u).bind (hb _ rfl)
  · have hblock : phySetupBlock u p = [] := if_neg (mt (phyDiffers_iff _ _ _).mpr hd)
    rw [if_neg hd, hblock]
    exact (hb u rfl).cast (Held.empty_append d).symm rfl rfl

/-- The poll and the sample of `PhySetup` (R160, R161). -/
theorem phySample_ends {f : PhySample → State → Act Unit} (p : PhySample)
    (h : ∀ v : State, v.ses = u.ses → Ends (f p v) v e out d evs c) :
    Ends (do
      pollPoint
      let p ← phyStatus
      let s ← getState
      f p s) u e out (Held.append ⟨[], 0, [p], 0, [false]⟩ d) ([.poll false, .phyRd p] ++ evs) c := by
  refine (pollPoint_ends.bind ((phyStatus_ends p).bind (Ends.get (h _ (by rfl))))).cast ?_ rfl rfl
  rw [← Held.append_assoc]
  rfl

/-- The lines of `PhySetup` before its first write (R160 to R162). -/
theorem phySetup_ends (p : PhySample)
    (h : ∀ v : State, v.ses = u.ses → Ends (phySetupLink u.ses.curRate) v e out d evs c) :
    Ends (do
      pollPoint
      let p ← phyStatus
      let s ← getState
      if phyDiffers Config.hw p s.ses.curRate s.ses.curLanes then phyProgram s else pure ()
      phySetupLink s.ses.curRate) u e out
      (Held.append ⟨[], (phySetupBlock u p).length, [p], 0, [false]⟩ d) (phySetupStart u p ++ evs) c := by
  have hblock : ∀ v : State, v.ses = u.ses → Ends
      (if phyDiffers Config.hw p v.ses.curRate v.ses.curLanes
        then phyProgram v >>= fun _ => phySetupLink v.ses.curRate else phySetupLink v.ses.curRate) v e out
      (Held.append ⟨[], (phySetupBlock u p).length, [], 0, []⟩ d) (phySetupBlock u p ++ evs) c := by
    intro v hv
    have hsame : phySetupBlock u p = phySetupBlock v p := by
      unfold phySetupBlock phyBlockEvents
      rw [hv]
    rw [hsame]
    refine phyBlock_ends p fun v' hv' => ?_
    rw [hv]
    exact h v' (hv'.trans hv)
  refine (phySample_ends p hblock).cast ?_ ?_ rfl
  · rw [← Held.append_assoc]
    rfl
  · rw [phySetupStart, List.append_assoc]

/-- The bytes of the link configuration write (R100, R163). -/
theorem linkConfigOf_eq (s : State) : linkConfigOf s = s.linkConfig := by
  unfold linkConfigOf State.linkConfig laneCountSetByte
  cases s.ses.capEfc <;> rfl

theorem writeLinkConfig_ends {x : Attempts} (hx : x.answered = true) :
    Ends (writeLinkConfig Config.hw u.ses.curRate) u e (.ok ()) x.answers
      (x.writeEvents 0x100 u.linkConfig) x.tries := by
  rw [← linkConfigOf_eq]
  exact Ends.get (memWrite_ends _ _ hx)

theorem writeLinkConfig_raises {x : Attempts} (hx : x.failed = true) :
    Ends (writeLinkConfig Config.hw u.ses.curRate) u e (raisesIn (.auxFail 0x100)) x.answers
      (x.writeEvents 0x100 u.linkConfig) 4 := by
  rw [← linkConfigOf_eq]
  exact Ends.get (memWrite_raises _ _ hx)

/-- The pattern write of `PhySetup` fails (R164). -/
theorem phySetupLink_raises {x y : Attempts} (hx : x.answered = true) (hy : y.failed = true) :
    Ends (phySetupLink u.ses.curRate) u e (raisesIn (.auxFail 0x102))
      ⟨x.responses ++ y.responses, 1, [], x.waits + 4, []⟩
      (x.writeEvents 0x100 u.linkConfig ++ [.phy .setPattern 1] ++ y.writeEvents 0x102 [0x21]) 4 := by
  refine ((writeLinkConfig_ends hx).bind ((phyOp_ends _ _).bind (memWrite_raises _ _ hy).bind_raises)).cast
    ?_ ?_ rfl
  · simp [Held.append, Attempts.answers, y.waits_failed hy, Nat.add_comm]
  · rw [List.append_assoc]
    rfl

end PhySetup

/-- A write of `PhySetup` fails (R263). -/
theorem phySetup_auxFails {s : State} {e : Env} {p : PhySample} {d : Held} {evs : List Event} {addr : Addr}
    (hs : s.held = Held.empty)
    (he : s.env = e.before (Held.append ⟨[], (phySetupBlock s p).length, [p], 0, [false]⟩ d))
    (h : ∀ v : State, v.linkConfig = s.linkConfig →
      Ends (phySetupLink v.ses.curRate) v e (raisesIn (.auxFail addr)) d evs 4) :
    exec .stPhySetup s =
      .next { s.afterAuxFail e (phySetupStart s p ++ evs) with ses.phase := .phySetup } := by
  refine Ends.runState_auxFails (addr := addr)
    (phySetup_ends (u := setPhase .phySetup (atStart .phySetup s)) p fun v hv => ?_) hs he (by decide)
  have hrate : v.ses.curRate = s.ses.curRate := by rw [hv]; rfl
  have hconfig : v.linkConfig = s.linkConfig := by
    unfold State.linkConfig
    rw [hv]
    rfl
  have hv' := h v hconfig
  rwa [hrate] at hv'

/-! ### Training rounds -/

section Rounds

variable {u : State} {e : Env} {d : Held} {evs : List Event} {c : BitVec 3}
  {out : Run → EStateM.Result Stop Run Unit}

theorem programLanes_ends {w : Attempts} (hw : w.answered = true) :
    Ends (programLanes Config.hw) u e (.ok ()) (Held.append ⟨[], 1, [], 0, []⟩ w.answers)
      ([.phy .setVoltPe (lanesArg u.lanes)] ++ w.writeEvents 0x103 (laneSetBytes Config.hw u.lanes))
      w.tries :=
  Ends.get ((phyOp_ends _ _).bind (memWrite_ends _ _ hw))

theorem programLanes_raises {w : Attempts} (hw : w.failed = true) :
    Ends (programLanes Config.hw) u e (raisesIn (.auxFail 0x103))
      (Held.append ⟨[], 1, [], 0, []⟩ w.answers)
      ([.phy .setVoltPe (lanesArg u.lanes)] ++ w.writeEvents 0x103 (laneSetBytes Config.hw u.lanes)) 4 :=
  Ends.get ((phyOp_ends _ _).bind (memWrite_raises _ _ hw))

/-- The lane-set write of a round fails (R170, R197). -/
theorem round_writeFails {w : Attempts} {rest : Act Unit} (hw : w.failed = true) :
    Ends (do
      pollPoint
      programLanes Config.hw
      rest) u e (raisesIn (.auxFail 0x103)) ⟨w.responses, 1, [], 4, [false]⟩ (roundStartEvents u w) 4 := by
  refine (pollPoint_ends.bind (programLanes_raises hw).bind_raises).cast ?_ rfl rfl
  simp [Held.append, Attempts.answers, w.waits_failed hw]

/-- A round up to its lane-set write (R170, R197). -/
theorem roundStart_ends {w : Attempts} {rest : Act Unit} (hw : w.answered = true)
    (h : ∀ v : State, v.ses = u.ses → v.lanes = u.lanes → v.auxTry = w.tries → Ends rest v e out d evs c) :
    Ends (do
      pollPoint
      programLanes Config.hw
      rest) u e out (Held.append ⟨w.responses, 1, [], w.waits, [false]⟩ d)
      (roundStartEvents u w ++ evs) c := by
  refine (pollPoint_ends.bind ((programLanes_ends hw).bind (h _ (by rfl) (by rfl) (by rfl)))).cast ?_ ?_ rfl
  · simp [Held.append, Attempts.answers]
  · rw [← List.append_assoc]
    rfl

theorem waitReadInterval_ends {v : State} (hses : v.ses = u.ses) :
    Ends (waitReadInterval Config.hw) v e (.ok ()) ⟨[], 0, [], 1, []⟩ [.wait u.readInterval] v.auxTry := by
  unfold State.readInterval
  rw [← hses]
  exact Ends.get (waitUs_ends _)

/-- The status read of a round of `n` bytes fails (R172, R197). -/
theorem round_readFails {w b : Attempts} {n : Nat} {f : List Byte → Act Unit} (hw : w.answered = true)
    (hb : b.failed = true) :
    Ends (do
      pollPoint
      programLanes Config.hw
      waitReadInterval Config.hw
      let b ← memRead Config.hw 0x202 n
      f b) u e (raisesIn (.auxFail 0x202)) ⟨w.responses ++ b.responses, 1, [], w.waits + 1 + 4, [false]⟩
      (roundEvents u n w b) 4 := by
  refine Ends.cast (roundStart_ends hw fun v hses _ _ =>
    (waitReadInterval_ends hses).bind (memRead_raises 0x202 n hb).bind_raises) ?_ ?_ rfl
  · simp [Held.append, Attempts.answers, b.waits_failed hb]
    omega
  · rw [roundEvents, List.append_assoc]

/-- A round up to its status read of `n` bytes (R170, R197). -/
theorem round_ends {w b : Attempts} {n : Nat} {f : List Byte → Act Unit} (hw : w.answered = true)
    (hb : b.answered = true)
    (h : ∀ v : State, v.ses = u.ses → v.lanes = u.lanes → Ends (f (b.bytes n)) v e out d evs c) :
    Ends (do
      pollPoint
      programLanes Config.hw
      waitReadInterval Config.hw
      let b ← memRead Config.hw 0x202 n
      f b) u e out
      (Held.append ⟨w.responses ++ b.responses, 1, [], w.waits + 1 + b.waits, [false]⟩ d)
      (roundEvents u n w b ++ evs) c := by
  refine Ends.cast (roundStart_ends hw fun v hses hlanes _ =>
    (waitReadInterval_ends hses).bind ((memRead_ends 0x202 n hb).bind (h _ hses hlanes))) ?_ ?_ rfl
  · simp [Held.append, Attempts.answers]
    omega
  · simp [roundEvents]

end Rounds

/-- The answers of a round whose adjust read fails. -/
theorem adjustFails_answers {w b a : Attempts} (ha : a.failed = true) :
    Held.append ⟨w.responses ++ b.responses, 1, [], w.waits + 1 + b.waits, [false]⟩ a.answers =
      ⟨w.responses ++ b.responses ++ a.responses, 1, [], w.waits + 1 + b.waits + 4, [false]⟩ := by
  simp [Held.append, Attempts.answers, a.waits_failed ha, Nat.add_comm]

/-- The adjust read of a round of `ClockRecovery` fails (R173 to R175, R263). -/
theorem clockRecovery_adjustFails {s : State} {e : Env} {w b a : Attempts} (hs : s.held = Held.empty)
    (hw : w.answered = true) (hb : b.answered = true) (ha : a.failed = true)
    (he : s.env = e.before ⟨w.responses ++ b.responses ++ a.responses, 1, [], w.waits + 1 + b.waits + 4,
      [false]⟩)
    (hcr : allSet (parseLaneStatus2 (b.bytes 2)).cr s.ses.curLanes.toNat = false)
    (hmax : allMaxSwing Config.hw s.lanes s.ses.curLanes.toNat = false) :
    exec .stClockRecovery s =
      .next { s.afterAuxFail e (roundEvents s 2 w b ++ a.readEvents 0x206 2) with ses.phase := .cr } := by
  rw [← adjustFails_answers ha] at he
  refine Ends.runState_auxFails (addr := 0x206)
    (round_ends (u := setPhase .cr (atStart .clockRecovery s)) hw hb fun v hses hlanes => Ends.get ?_) hs he (by decide)
  have hn : v.ses.curLanes = s.ses.curLanes := by rw [hses]; rfl
  have hl : v.lanes = s.lanes := hlanes
  rw [hn, hl, if_neg (by simp [hcr]), if_neg (by simp [hmax])]
  exact (memRead_raises 0x206 2 ha).bind_raises

/-- The adjust read of a round of `Equalization` fails (R198 to R202, R263). -/
theorem equalization_adjustFails {s : State} {e : Env} {w b a : Attempts} (hs : s.held = Held.empty)
    (hw : w.answered = true) (hb : b.answered = true) (ha : a.failed = true)
    (he : s.env = e.before ⟨w.responses ++ b.responses ++ a.responses, 1, [], w.waits + 1 + b.waits + 4,
      [false]⟩)
    (hcr : allSet (parseStatus3 Config.hw (b.bytes 3)).lanes.cr s.ses.curLanes.toNat = true)
    (hdone : eqDone (parseStatus3 Config.hw (b.bytes 3)) s.ses.curLanes.toNat = false)
    (hcnt : s.ses.eqRetryCnt.toNat < 5) :
    exec .stEqualization s =
      .next { s.afterAuxFail e (roundEvents s 3 w b ++ a.readEvents 0x206 2) with ses.phase := .eq } := by
  rw [← adjustFails_answers ha] at he
  refine Ends.runState_auxFails (addr := 0x206)
    (round_ends (u := setPhase .eq (atStart .equalization s)) hw hb fun v hses _ => Ends.get ?_) hs he (by decide)
  have hn : v.ses.curLanes = s.ses.curLanes := by rw [hses]; rfl
  have hc : v.ses.eqRetryCnt = s.ses.eqRetryCnt := by rw [hses]; rfl
  rw [hn, hc, if_neg (by simp [hcr]), if_neg (by simp [hdone]), if_neg (by simpa using hcnt)]
  exact (memRead_raises 0x206 2 ha).bind_raises

/-! ### EqualizationSetup and Success -/

/-- The pattern that `EqualizationSetup` selects, as the PHY enum and the sink's byte (R98, R196). -/
theorem selectEqPattern_eq (s : State) :
    let p := selectEqPattern Config.hw s.ses.capTps3 s.ses.capTps4
    (p.code.setWidth 16, tpsetByte Config.hw p) = s.eqPattern := by
  unfold State.eqPattern selectEqPattern
  cases s.ses.capTps4 <;> cases s.ses.capTps3 <;> rfl

/-- The write of `EqualizationSetup` fails (R195, R263). -/
theorem equalizationSetup_auxFails {s : State} {e : Env} {w : Attempts} (hs : s.held = Held.empty)
    (hw : w.failed = true) (he : s.env = e.before (Held.append ⟨[], 1, [], 0, []⟩ w.answers)) :
    exec .stEqualizationSetup s = .next { s.afterAuxFail e
      (.phy .setPattern s.eqPattern.1 :: w.writeEvents 0x102 [s.eqPattern.2]) with
      ses.phase := .eqSetup } := by
  rw [← selectEqPattern_eq s]
  exact Ends.runState_auxFails
    (Ends.get ((phyOp_ends _ _).bind (memWrite_raises _ _ hw).bind_raises)) hs he (by decide)

/-- The write of `Success` fails (R200, R263). -/
theorem success_auxFails {s : State} {e : Env} {w : Attempts} (hs : s.held = Held.empty)
    (hw : w.failed = true) (he : s.env = e.before (Held.append ⟨[], 1, [], 0, []⟩ w.answers)) :
    exec .stSuccess s =
      .next (s.afterAuxFail e (.phy .setPattern 0 :: w.writeEvents 0x102 [0x00])) :=
  Ends.runAction_auxFails (s := goTo .success s)
    ((phyOp_ends _ _).bind (memWrite_raises _ _ hw).bind_raises) hs he (by simp)

/-! ### The obligation -/

/-- A row of AUXREQ whose five attempts fail raises `AuxFail` (R66, R67, R263). -/
theorem row_auxFails {a : Act Unit} {s : State} {e : Env} {x : Attempts} {evs : List Event} {addr : Addr}
    (h : Ends a (dropRequests s) e (raisesIn (.auxFail addr)) x.answers evs 4)
    (hs : s.held = Held.empty) (he : s.env = e.before x.answers) :
    runAction a s = .next (if s.st = .healthCheck then
      completed (s.result .auxTransportError) { s.afterPorts e evs with auxTry := 4 }
      else s.afterAuxFail e evs) := by
  split
  · exact h.runAction_checkFails hs he ‹_›
  · exact h.runAction_auxFails hs he ‹_›

/-- Settles O40, transaction by transaction. -/
theorem auxFailAfterFive : Obligations.AuxFailAfterFive := by
  refine ⟨fun addr len data s e x hs hx he => ?rows, fun s e p x y hs => ⟨fun hx he => ?linkConfig,
    fun hx hy he => ?pattern⟩, fun s e w b a hs => ⟨fun hw he => ?laneSet, fun hw hb he => ?status,
    fun hw hb ha he => ⟨fun hcr hmax => ?crAdjust, fun hcr hdone hcnt => ?eqAdjust⟩⟩,
    fun s e w hs hw he => ?setups⟩
  case rows =>
    rw [← x.answers_failed hx] at he
    exact ⟨row_auxFails (memRead_raises _ _ hx).bind_raises hs he,
      row_auxFails (memWrite_raises _ _ hx) hs he⟩
  case linkConfig =>
    refine phySetup_auxFails (d := x.answers) hs ?_ fun v hv => hv ▸ (writeLinkConfig_raises hx).bind_raises
    simpa [Held.append, x.answers_failed hx] using he
  case pattern =>
    have hrun := phySetup_auxFails (e := e) (p := p) hs (by simpa [Held.append, Nat.add_comm] using he)
      fun v hv => hv ▸ phySetupLink_raises hx hy
    simpa [phySetupStart] using hrun
  case laneSet =>
    exact ⟨Ends.runState_auxFails (round_writeFails hw) hs he (by decide),
      Ends.runState_auxFails (round_writeFails hw) hs he (by decide)⟩
  case status =>
    exact ⟨Ends.runState_auxFails (round_readFails hw hb) hs he (by decide),
      Ends.runState_auxFails (round_readFails hw hb) hs he (by decide)⟩
  case crAdjust => exact clockRecovery_adjustFails hs hw hb ha he hcr hmax
  case eqAdjust =>
    refine equalization_adjustFails hs hw hb ha he hcr ?_ hcnt
    simpa [eqDone, and_assoc] using hdone
  case setups =>
    have he' : s.env = e.before (Held.append ⟨[], 1, [], 0, []⟩ w.answers) := by
      rw [w.answers_failed hw]
      exact he
    exact ⟨equalizationSetup_auxFails hs hw he', success_auxFails hs hw he'⟩

end Sys2Proof.Machine
end

section
/-! PROOF. What the ports drive while the block waits (R65, R72, R74, R107, R108, R110): O5. -/

namespace Sys2Proof.Machine

open Sys2Proof

/-! ### The data bus -/

/-- The low byte and the rest of a data bus, put together again. -/
theorem shiftLeft_or_dataByte (d : BitVec 128) :
    ((d >>> 8) <<< 8) ||| (dataByte d 0).setWidth 128 = d := by
  apply BitVec.eq_of_getLsbD_eq
  intro j hj
  by_cases h : j < 8
  · simp [dataByte, h, hj]
  · simp [dataByte, h, hj, show 8 + (j - 8) = j by omega]

/-- The bytes of a data bus, lowest first: byte 0, then those of the rest. -/
theorem dataBytes_succ (d : BitVec 128) (n : Nat) :
    dataBytes d (n + 1) = dataByte d 0 :: dataBytes (d >>> 8) n := by
  have hbyte : ∀ k, dataByte d (k + 1) = dataByte (d >>> 8) k := by
    intro k
    apply BitVec.eq_of_getLsbD_eq
    intro j hj
    simp [dataByte, hj, show 8 + (8 * k + j) = 8 * (k + 1) + j by omega]
  simp [dataBytes, List.range_succ_eq_map, hbyte]

/-- Bytes taken from a bus that holds no more are laid on it again as they were (R107). -/
theorem packBytes_dataBytes (n : Nat) :
    ∀ d : BitVec 128, d >>> (8 * n) = 0 → packBytes (dataBytes d n) = d := by
  induction n with
  | zero => intro d hd; exact (by simpa using hd : d = 0#128).symm
  | succ n ih =>
    intro d hd
    have hrest : (d >>> 8) >>> (8 * n) = 0 := by
      rw [← BitVec.shiftRight_add, Nat.add_comm, ← Nat.mul_succ]
      exact hd
    rw [dataBytes_succ, packBytes, ih _ hrest, shiftLeft_or_dataByte]

/-! ### A request outstanding -/

section Requests

variable {s : State}

/-- A PHY operation without its acknowledgement drives its word (R72, R108). -/
theorem runAction_phyOp_waits (op : PhyOpc) (arg : BitVec 16) (hs : s.held = Held.empty)
    (h : s.env.phyAcks = 0) :
    runAction (phyOp op arg) s = .next { dropRequests s with out.phyReq := some (phyReqWord op arg) } := by
  unfold runAction
  rw [phyOp_blocked op arg _ (congrArg Held.acks hs) h]

/-- The first attempt of a transaction without its response drives its word (R65, R107). -/
theorem auxTransaction_blocked (q : AuxReq) (r : Run) (hr : r.replay.aux = [])
    (h : r.s.env.auxRsps = []) :
    auxTransaction Config.hw q r =
      .error .blocked { r with s := { r.s with auxTry := 0, out.auxReq := some q.word } } := by
  rw [auxTransaction, act_bind]
  show auxLoop Config.hw q (3 + 1) { r with s.auxTry := 0 } = _
  rw [auxLoop, act_bind, auxRequest_blocked q { r with s.auxTry := 0 } hr h]

theorem execAuxRd_waits (addr : Addr) (len : BitVec 5) (hs : s.held = Held.empty)
    (h : s.env.auxRsps = []) :
    execAuxRd addr len s =
      .next { dropRequests s with auxTry := 0, out.auxReq := some (auxReqWord 0 addr len 0) } := by
  unfold execAuxRd runAction memRead
  rw [act_bind, act_bind, auxTransaction_blocked _ _ (congrArg Held.aux hs) h]
  simp [AuxReq.word]

theorem execAuxWr_waits (addr : Addr) (len : BitVec 5) {data : BitVec 128} (hs : s.held = Held.empty)
    (h : s.env.auxRsps = []) (hdata : data >>> (8 * len.toNat) = 0) :
    execAuxWr addr len data s =
      .next { dropRequests s with auxTry := 0, out.auxReq := some (auxReqWord 1 addr len data) } := by
  unfold execAuxWr runAction memWrite
  rw [act_bind, auxTransaction_blocked _ _ (congrArg Held.aux hs) h]
  have hlen : (dataBytes data len.toNat).length = len.toNat := by simp [dataBytes]
  simp [AuxReq.word, hlen, packBytes_dataBytes _ _ hdata]

/-- A row of PHYREQ whose operation is not acknowledged drives its encoding (R72, R108). -/
theorem phyRow_waits {i : Instr} {w : BitVec 20} (hi : encode i = .phyReq w) (hs : s.held = Held.empty)
    (h : s.env.phyAcks = 0) : exec i s = .next { dropRequests s with out.phyReq := some w } := by
  have hrow := fun op arg => runAction_phyOp_waits (s := s) op arg hs h
  cases i <;> cases hi
  -- the nine rows of PHYREQ
  all_goals exact hrow _ _

/-- A row of AUXREQ whose first attempt has no response drives its encoding (R65, R107). -/
theorem auxRow_waits {i : Instr} {w : BitVec auxReqWidth} (hwf : i.wf = true) (hi : encode i = .auxReq w)
    (hs : s.held = Held.empty) (h : s.env.auxRsps = []) :
    exec i s = .next { dropRequests s with auxTry := 0, out.auxReq := some w } := by
  cases i with
  | auxRd addr len => cases hi; exact execAuxRd_waits addr len hs h
  | auxWr addr len data =>
    cases hi
    simp only [Instr.wf, Bool.and_eq_true, beq_iff_eq] at hwf
    exact execAuxWr_waits addr len hs h hwf.2
  | _ => cases hi

end Requests

/-! ### A wait running -/

section Waits

variable {α β : Type} {s : State} {e : Env} {d : Held} {evs : List Event} {c : BitVec 3}

theorem Ends.bind_waits {a : Act α} {f : α → Act β} {us : BitVec 20}
    (ha : Ends a s e (waitsIn us) d evs c) : Ends (a >>= f) s e (waitsIn us) d evs c := by
  intro hs henv
  rw [act_bind, ha hs henv]

/-- After a failed first attempt the back-off wait runs (R66, R74). -/
theorem auxTransaction_waits (q : AuxReq) {a : AuxRsp} (ha : a.err = true) (he : e.waitDones = 0) :
    Ends (auxTransaction Config.hw q) s e (waitsIn 50000) ⟨[a], 0, [], 0, []⟩ [q.event a] 1 := by
  have hrest : ∀ v : State, v.auxTry = 0 → Ends (if a.err then do
        modifyState fun s => { s with auxTry := s.auxTry + 1 }
        waitUs 50000
        auxLoop Config.hw q 3
      else pure a) v e (waitsIn 50000) Held.empty [] 1 := by
    intro v hv
    rw [if_pos ha]
    refine ((setTry_ends fun s => s.auxTry + 1).bind (waitUs_ends_waiting _ he).bind_waits).cast rfl rfl ?_
    show v.auxTry + 1 = 1
    rw [hv]
    rfl
  show Ends (modifyState (fun s => { s with auxTry := 0 }) >>= fun _ => auxLoop Config.hw q (3 + 1))
    _ _ _ _ _ _
  exact ((setTry_ends fun _ => 0).bind ((auxRequest_ends q a).bind (hrest _ (by rfl)))).cast rfl rfl rfl

theorem waitReadInterval_waits {v : State} (hses : v.ses = s.ses) (he : e.waitDones = 0) :
    Ends (waitReadInterval Config.hw) v e (waitsIn s.readInterval) Held.empty [] v.auxTry := by
  unfold State.readInterval
  rw [← hses]
  exact Ends.get (waitUs_ends_waiting _ he)

/-- In a training round, after an answered lane-set write, the read interval runs (R74, R172). -/
theorem round_waits {w : Attempts} {rest : Act Unit} (hw : w.answered = true) (he : e.waitDones = 0) :
    Ends (do
      pollPoint
      programLanes Config.hw
      waitReadInterval Config.hw
      rest) s e (waitsIn s.readInterval) ⟨w.responses, 1, [], w.waits, [false]⟩ (roundStartEvents s w)
      w.tries := by
  refine (roundStart_ends hw fun v hses _ htry => ?_).cast (Held.append_empty _) (List.append_nil _) rfl
  rw [← htry]
  exact (waitReadInterval_waits hses he).bind_waits

/-- The step of a training round whose read interval runs. -/
theorem runState_round_waits {x : Fsm} {p : Phase} {w : Attempts} {rest : Act Unit}
    (hs : s.held = Held.empty) (hw : w.answered = true)
    (henv : s.env = e.before ⟨w.responses, 1, [], w.waits, [false]⟩) (he : e.waitDones = 0) :
    runState x (do
      modifyState (setPhase p)
      pollPoint
      programLanes Config.hw
      waitReadInterval Config.hw
      rest) s = .next { s.afterAux e (roundStartEvents s w) w with
        out.waitReq := some s.readInterval, held := ⟨w.responses, 1, [], w.waits, [false]⟩,
        st := x, ses.phase := p } := by
  rw [runState, runAction_phase]
  exact Ends.runAction_waits (s := setPhase p (goTo x s)) (round_waits hw he) hs henv

end Waits

/-- Settles O5: the port that each blocked transaction drives. -/
theorem requestWordIsEncoding : Obligations.RequestWordIsEncoding := by
  refine ⟨fun i s hwf hs => ⟨fun w hi h => phyRow_waits hi hs h, fun w hi h => auxRow_waits hwf hi hs h⟩,
    fun addr len data s e a hs ha henv he => ?_, fun s e w hs hw henv he =>
    ⟨runState_round_waits hs hw henv he, runState_round_waits hs hw henv he⟩⟩
  have hread := ((auxTransaction_waits (s := dropRequests s) (.read addr len.toNat) ha he).bind_waits
    (f := fun x => pure (dataBytes x.data len.toNat))).bind_waits (f := fun _ => pure ())
  have hwrite := (auxTransaction_waits (s := dropRequests s) (.write addr (dataBytes data len.toNat)) ha
    he).bind_waits (f := fun _ => pure ())
  simp only [AuxReq.event, ha, if_true] at hread hwrite
  exact ⟨hread.runAction_waits hs henv, hwrite.runAction_waits hs henv⟩

end Sys2Proof.Machine
end

section
/-! PROOF. The encodings (30_encoding.md): the words of the formats CMD, ST, PHASE, DPCD102, DPCD100 and RES
that decode, and what they decode to: O43. -/

namespace Sys2Proof.Machine

open Sys2Proof

/-! ### Tables of codes -/

/-- A decoder that knows the codes of a table, and no other, accepts exactly these and reads their rows. -/
theorem decodes_iff_of_table {κ β : Type} {dec : β → Except Reject Instr} {code : κ → β} {row : κ → Instr}
    (hrow : ∀ x, dec (code x) = .ok (row x))
    (hcodes : ∀ w, (∃ x, code x = w) ∨ ∃ why, dec w = .error why) (w : β) (i : Instr) :
    dec w = .ok i ↔ ∃ x, code x = w ∧ row x = i := by
  constructor
  · intro h
    rcases hcodes w with ⟨x, rfl⟩ | ⟨why, herr⟩
    · exact ⟨x, rfl, Except.ok.inj ((hrow x).symm.trans h)⟩
    · cases herr.symm.trans h
  · rintro ⟨x, rfl, rfl⟩
    exact hrow x

/-- A word decodes if it is the code of a row. -/
theorem decodes_iff_exists_code {κ β : Type} {dec : β → Except Reject Instr} {code : κ → β} {row : κ → Instr}
    {w : β} (h : ∀ i, dec w = .ok i ↔ ∃ x, code x = w ∧ row x = i) :
    (∃ i, dec w = .ok i) ↔ ∃ x, code x = w :=
  ⟨fun ⟨i, hi⟩ => let ⟨x, hx, _⟩ := (h i).mp hi; ⟨x, hx⟩, fun ⟨x, hx⟩ => ⟨_, (h _).mpr ⟨x, hx, rfl⟩⟩⟩

/-- The state codes are 0 to 10 (R95). -/
theorem exists_fsmCode_iff (w : BitVec 4) : (∃ x, Fsm.code x = w) ↔ w.toNat ≤ 10 := by
  have htable : ∀ w : BitVec 4, w.toNat ≤ 10 → ∃ x ∈ [Fsm.idle, .capNeg, .phySetup, .clockRecovery,
      .reduceLinkRate, .equalizationSetup, .equalization, .success, .failed, .linkUnplugged, .healthCheck],
      x.code = w := by decide
  refine ⟨?_, fun h => let ⟨x, _, hx⟩ := htable w h; ⟨x, hx⟩⟩
  rintro ⟨x, rfl⟩
  cases x <;> decide

/-- The phase codes are all but 7 (R94). -/
theorem exists_phaseCode_iff (c : BitVec 3) : (∃ p, Phase.code p = c) ↔ c ≠ 7 := by
  have htable : ∀ c : BitVec 3, c ≠ 7 →
      ∃ p ∈ [Phase.none, .capNeg, .phySetup, .cr, .eqSetup, .eq, .health], p.code = c := by decide
  refine ⟨?_, fun h => let ⟨p, _, hp⟩ := htable c h; ⟨p, hp⟩⟩
  rintro ⟨p, rfl⟩
  cases p <;> decide

/-- The result codes are all but 7 (R93). -/
theorem exists_resCode_iff (c : BitVec 3) : (∃ k, ResCode.code k = c) ↔ c ≠ 7 := by
  have htable : ∀ c : BitVec 3, c ≠ 7 → ∃ k ∈ [ResCode.ok, .linkUnplugged, .trainingExhausted,
      .capabilityMismatch, .auxTransportError, .retrainRequired, .badCommand], k.code = c := by decide
  refine ⟨?_, fun h => let ⟨k, _, hk⟩ := htable c h; ⟨k, hk⟩⟩
  rintro ⟨k, rfl⟩
  cases k <;> decide

/-- The pattern enums are 0 to 4 (R98). -/
theorem exists_patternCode_iff (c : BitVec 3) : (∃ p, Pattern.code p = c) ↔ c.toNat ≤ 4 := by
  have htable : ∀ c : BitVec 3, c.toNat ≤ 4 →
      ∃ p ∈ [Pattern.normal, .tps1, .tps2, .tps3, .tps4], p.code = c := by decide
  refine ⟨?_, fun h => let ⟨p, _, hp⟩ := htable c h; ⟨p, hp⟩⟩
  rintro ⟨p, rfl⟩
  cases p <;> decide

/-! ### CMD and ST -/

/-- The word of a CMD row decodes to it (R90, R91). -/
theorem decodeCmd_of_encode {i : Instr} {w : BitVec 8} (hi : encode i = .cmd w) : decodeCmd w = i := by
  cases i with
  | train rate lanes => cases hi; revert rate lanes; decide
  | checkHealth x => cases hi; revert x; decide
  | illegalOp0 x => cases hi; revert x; decide
  | illegalOp3 x => cases hi; revert x; decide
  | illegalBit7 x => cases hi; revert x; decide
  | _ => cases hi

theorem encode_stateInstr (x : Fsm) : encode (stateInstr x) = .st x.code := by
  cases x <;> rfl

/-- Codes 11 to 15 are no state (U6). -/
theorem decodeSt_unused {w : BitVec 4} (h : ¬ w.toNat ≤ 10) : decodeSt w = .error .unusedStateCode := by
  revert w; decide

/-- A state word decodes to the action of the state of its code (R95). -/
theorem decodeSt_ok_iff (w : BitVec 4) (i : Instr) :
    decodeSt w = .ok i ↔ ∃ x, Fsm.code x = w ∧ stateInstr x = i := by
  refine decodes_iff_of_table decodeSt_code (fun w => ?_) w i
  rw [exists_fsmCode_iff]
  exact (em _).imp_right fun h => ⟨_, decodeSt_unused h⟩

/-- The word of an ST row decodes to it (R95). -/
theorem decodeSt_of_encode {i : Instr} {w : BitVec 4} (hi : encode i = .st w) : decodeSt w = .ok i := by
  cases i <;> cases hi
  -- the eleven rows of ST
  all_goals rfl

/-! ### PHASE -/

/-- The row of a phase (R94). -/
def phaseRow : Phase → Instr
  | .none => .phaseNone | .capNeg => .phaseCapNeg | .phySetup => .phasePhySetup | .cr => .phaseCr
  | .eqSetup => .phaseEqSetup | .eq => .phaseEq | .health => .phaseHealth

theorem encode_phaseRow (p : Phase) : encode (phaseRow p) = .phase p.code := by
  cases p <;> rfl

/-- The word of a PHASE row decodes to it (R94). -/
theorem decodePhase_of_encode {i : Instr} {w : BitVec 3} (hi : encode i = .phase w) :
    decodePhase w = .ok i := by
  cases i <;> cases hi
  -- the seven rows of PHASE
  all_goals rfl

/-- A phase word decodes to the row of its phase; 7 is unused (R94). -/
theorem decodePhase_ok_iff (w : BitVec 3) (i : Instr) :
    decodePhase w = .ok i ↔ ∃ p, Phase.code p = w ∧ phaseRow p = i := by
  have hunused : ∀ w : BitVec 3, ¬ w ≠ 7 → decodePhase w = .error .unusedPhaseCode := by decide
  refine decodes_iff_of_table (fun p => decodePhase_of_encode (encode_phaseRow p)) (fun w => ?_) w i
  rw [exists_phaseCode_iff]
  exact (em _).imp_right fun h => ⟨_, hunused w h⟩

/-! ### DPCD102 and DPCD100 -/

/-- The row of a pattern byte (R98). -/
def patternRow : Pattern → Instr
  | .normal => .tpsetNormal | .tps1 => .tpsetTps1 | .tps2 => .tpsetTps2 | .tps3 => .tpsetTps3
  | .tps4 => .tpsetTps4

theorem encode_patternRow (p : Pattern) : encode (patternRow p) = .dpcd102 (tpsetByte Config.hw p) := by
  cases p <;> rfl

/-- The five bytes of `TRAINING_PATTERN_SET` (R98). -/
theorem exists_tpsetByte_iff (w : Byte) : (∃ p, tpsetByte Config.hw p = w) ↔
    w = 0x00 ∨ w = 0x21 ∨ w = 0x22 ∨ w = 0x23 ∨ w = 0x07 := by
  constructor
  · rintro ⟨p, rfl⟩
    cases p <;> decide
  · rintro (rfl | rfl | rfl | rfl | rfl)
    exacts [⟨.normal, rfl⟩, ⟨.tps1, rfl⟩, ⟨.tps2, rfl⟩, ⟨.tps3, rfl⟩, ⟨.tps4, rfl⟩]

/-- The word of a row of DPCD102 decodes to it (R98). -/
theorem decodeTpset_of_encode {i : Instr} {w : Byte} (hi : encode i = .dpcd102 w) :
    decodeTpset Config.hw w = .ok i := by
  cases i <;> cases hi
  -- the five rows of DPCD102
  all_goals rfl

/-- A byte at 0x102 decodes to the row of its pattern (R98). -/
theorem decodeTpset_ok_iff (w : Byte) (i : Instr) :
    decodeTpset Config.hw w = .ok i ↔ ∃ p, tpsetByte Config.hw p = w ∧ patternRow p = i := by
  refine decodes_iff_of_table (fun p => decodeTpset_of_encode (encode_patternRow p)) (fun w => ?_) w i
  rw [exists_tpsetByte_iff]
  refine (em _).imp_right fun h => ⟨.notPatternByte, ?_⟩
  simp only [not_or] at h
  simp only [decodeTpset, hw_tpsetNormal, hw_tpsetTps1, hw_tpsetTps2, hw_tpsetTps3, hw_tpsetTps4, h, if_false]

/-- The row of a link rate (R96). -/
def rateRow (r : RateIdx) : Instr :=
  if r = 0 then .rate162 else if r = 1 then .rate27 else if r = 2 then .rate54 else .rate81

theorem encode_rateRow (r : RateIdx) : encode (rateRow r) = .dpcd100 (rateCode Config.hw r) := by
  revert r; decide

/-- The four rate codes (R96). -/
theorem exists_rateCode_iff (w : Byte) : (∃ r, rateCode Config.hw r = w) ↔
    w = 0x06 ∨ w = 0x0A ∨ w = 0x14 ∨ w = 0x1E := by
  constructor
  · rintro ⟨r, rfl⟩
    revert r; decide
  · rintro (rfl | rfl | rfl | rfl)
    exacts [⟨0, rfl⟩, ⟨1, rfl⟩, ⟨2, rfl⟩, ⟨3, rfl⟩]

/-- The word of a row of DPCD100 decodes to it (R96). -/
theorem decodeRate_of_encode {i : Instr} {w : Byte} (hi : encode i = .dpcd100 w) :
    decodeRate Config.hw w = .ok i := by
  cases i <;> cases hi
  -- the four rows of DPCD100
  all_goals rfl

/-- A byte at 0x100 decodes to the row of its rate (R96). -/
theorem decodeRate_ok_iff (w : Byte) (i : Instr) :
    decodeRate Config.hw w = .ok i ↔ ∃ r, rateCode Config.hw r = w ∧ rateRow r = i := by
  refine decodes_iff_of_table (fun r => decodeRate_of_encode (encode_rateRow r)) (fun w => ?_) w i
  rw [exists_rateCode_iff]
  refine (em _).imp_right fun h => ⟨.notRateCode, ?_⟩
  simp only [not_or] at h
  simp only [decodeRate, rateIndex, hw_rateCode, h, if_false]

/-! ### RES -/

/-- The word of the row of a result is the result word (R92, R93). -/
theorem encode_resRow {r : ResultRegs} (hv : r.valid = true) : encode r.instr = .res r.word := by
  obtain ⟨v, op, code, ph, rate, lanes⟩ := r
  subst hv
  cases code <;> rfl

/-- A result word whose bits 15:14 are 0 is put together from its fields (R92). -/
theorem resWordOf_of_word {w : BitVec 16} (hz : w.extractLsb' 14 2 = 0) :
    resWordOf (w.extractLsb' 0 1) (w.extractLsb' 1 2) (w.extractLsb' 3 3) (w.extractLsb' 6 3)
      (w.extractLsb' 9 2) (w.extractLsb' 11 3) = w := by
  apply BitVec.eq_of_getLsbD_eq
  intro j hj
  rw [resWordOf_getLsbD]
  by_cases h : j < 14
  · interval_cases j <;> simp
  · have hbit : w.getLsbD j = false := by
      simpa [show j - 14 < 2 by omega, show 14 + (j - 14) = j by omega] using congrArg (·.getLsbD (j - 14)) hz
    rw [hbit, if_neg (by omega), if_neg (by omega), if_neg (by omega), if_neg (by omega), if_neg (by omega)]
    exact BitVec.getLsbD_of_ge _ _ (by omega)

/-- The result with a used code (R93). -/
theorem resInstr_code (k : ResCode) (op : BitVec 2) (p : Phase) (rate : RateIdx) (lanes : LaneCount) :
    resInstr k.code op p rate lanes = .ok (ResultRegs.instr ⟨true, op, k, p, rate, lanes⟩) := by
  cases k <;> rfl

/-- The phase of a code (R94). -/
theorem phaseOfCode_code (p : Phase) : Phase.ofCode p.code = some p := by
  cases p <;> rfl

/-- The word of a completion decodes to its row (R92, R93). -/
theorem decodeRes_word {r : ResultRegs} (hv : r.valid = true) : decodeRes r.word = .ok r.instr := by
  obtain ⟨v, op, k, p, rate, lanes⟩ := r
  subst hv
  obtain ⟨hvalid, hop, hk, hp, hrate, hlanes, hz⟩ := resWordOf_fields 1 op k.code p.code rate lanes
  have hbit : (resWordOf 1 op k.code p.code rate lanes).getLsbD 0 = true := by
    rw [resWordOf_getLsbD]
    rfl
  show decodeRes (resWordOf 1 op k.code p.code rate lanes) = _
  unfold decodeRes
  rw [hbit, hz, hp, hk, hop, hrate, hlanes, phaseOfCode_code]
  exact resInstr_code k op p rate lanes

/-- The word of a RES row decodes to it, whatever its operands are (R92). -/
theorem decodeRes_of_encode {i : Instr} {w : BitVec 16} (hi : encode i = .res w) : decodeRes w = .ok i := by
  cases i <;> cases hi
  -- the seven rows of RES
  all_goals exact decodeRes_word (r := ⟨true, _, _, _, _, _⟩) rfl

/-- A word is that of a completion if it is valid, its code and its phase are used and bits 15:14 are 0
(R92 to R94). -/
theorem exists_resWord_iff (w : BitVec 16) : (∃ r : {r : ResultRegs // r.valid = true}, r.1.word = w) ↔
    w.getLsbD 0 = true ∧ w.extractLsb' 3 3 ≠ 7 ∧ w.extractLsb' 6 3 ≠ 7 ∧ w.extractLsb' 14 2 = 0 := by
  rw [← exists_resCode_iff, ← exists_phaseCode_iff]
  constructor
  · rintro ⟨⟨r, hv⟩, rfl⟩
    obtain ⟨-, -, hk, hp, -, -, hz⟩ := resWordOf_fields (.ofBool r.valid) r.op r.code.code r.phase.code r.rate
      r.lanes
    refine ⟨?_, ⟨_, hk.symm⟩, ⟨_, hp.symm⟩, hz⟩
    rw [ResultRegs.word, resWordOf_getLsbD, hv]
    rfl
  · rintro ⟨hv, ⟨k, hk⟩, ⟨p, hp⟩, hz⟩
    refine ⟨⟨⟨true, w.extractLsb' 1 2, k, p, w.extractLsb' 9 2, w.extractLsb' 11 3⟩, rfl⟩, ?_⟩
    have hvalid : w.extractLsb' 0 1 = BitVec.ofBool true := extractLsb'_eq_of_bits (by simpa using hv)
    rw [ResultRegs.word, hk, hp, ← hvalid, resWordOf_of_word hz]

/-- Every other word of 16 bits is rejected (U6). -/
theorem decodeRes_rejects {w : BitVec 16} (h : ¬ (w.getLsbD 0 = true ∧ w.extractLsb' 3 3 ≠ 7 ∧
    w.extractLsb' 6 3 ≠ 7 ∧ w.extractLsb' 14 2 = 0)) : ∃ why, decodeRes w = .error why := by
  unfold decodeRes
  split_ifs with hv hz
  · exact ⟨_, rfl⟩
  · exact ⟨_, rfl⟩
  · split
    next => exact ⟨_, rfl⟩
    next p hp =>
      have hphase : w.extractLsb' 6 3 ≠ 7 := by
        intro h7
        rw [h7] at hp
        cases hp
      have hcode : w.extractLsb' 3 3 = 7 := by
        by_contra hk
        exact h ⟨by simpa using hv, hk, hphase, not_not.mp hz⟩
      rw [hcode]
      exact ⟨.unusedResultCode, rfl⟩

/-- What a result word decodes to (R92). -/
theorem decodeRes_ok_iff (w : BitVec 16) (i : Instr) :
    decodeRes w = .ok i ↔ ∃ r : {r : ResultRegs // r.valid = true}, r.1.word = w ∧ r.1.instr = i := by
  refine decodes_iff_of_table (fun r => decodeRes_word r.2) (fun w => ?_) w i
  rw [exists_resWord_iff]
  exact (em _).imp_right decodeRes_rejects

/-- Settles O43: the result word is put together from the result registers. -/
theorem resultWordFields : Obligations.ResultWordFields :=
  fun s => resWordOf_fields (.ofBool s.res.valid) s.res.op s.res.code.code s.res.phase.code s.res.rate
    s.res.lanes

end Sys2Proof.Machine
end

section
/-! PROOF. The words of the formats PHYREQ and AUXREQ that decode, and what they decode to (R107, R108). With
them the encoder and the decoder agree on all eight formats: O1, O2, O3, O4. -/

namespace Sys2Proof.Machine

open Sys2Proof

/-! ### PHYREQ -/

/-- A field above bit `k` that reaches the top of a word is 0 if the word is below `2 ^ k`. -/
theorem extractLsb'_top_eq_zero_iff {w k m : Nat} (x : BitVec w) (h : w ≤ k + m) :
    x.extractLsb' k m = 0 ↔ x.toNat < 2 ^ k := by
  have hdiv : x.toNat / 2 ^ k < 2 ^ m := by
    rw [Nat.div_lt_iff_lt_mul (by positivity), ← pow_add, Nat.add_comm]
    exact x.isLt.trans_le (Nat.pow_le_pow_right (by decide) h)
  rw [← BitVec.toNat_inj, BitVec.extractLsb'_toNat, Nat.shiftRight_eq_div_pow, Nat.mod_eq_of_lt hdiv]
  simp [Nat.div_eq_zero_iff]

/-- A PHY request is put together from its fields (R108). -/
theorem phyReqWord_of_word {w : BitVec 20} {op : PhyOpc} (hop : op.code = w.extractLsb' 0 4) :
    phyReqWord op (w.extractLsb' 4 16) = w := by
  apply BitVec.eq_of_getLsbD_eq
  intro j hj
  rw [phyReqWord_getLsbD, hop]
  by_cases h : j < 4
  · simp [h]
  · simp [h, show 4 + (j - 4) = j by omega, show j - 4 < 16 by omega]

/-- Decoding a PHY request takes its argument apart as its op says (R108). -/
theorem decodePhyReq_word (op : PhyOpc) (arg : BitVec 16) :
    decodePhyReq (phyReqWord op arg) = decodePhyArg op.code arg := by
  obtain ⟨hop, harg⟩ := phyReqWord_fields op arg
  rw [decodePhyReq, hop, harg]

/-- The word of a PHYREQ row decodes to it (R108). -/
theorem decodePhyReq_of_encode {i : Instr} {w : BitVec 20} (hi : encode i = .phyReq w) :
    decodePhyReq w = .ok i := by
  cases i with
  | phyReset a => cases hi; revert a; decide
  | phySetLinkRate r => cases hi; revert r; decide
  | phySetLaneCount n => cases hi; revert n; decide
  | phyModeSetting => cases hi; rfl
  | phyPostInit => cases hi; rfl
  | phyWaitPllLock => cases hi; rfl
  | phySetVoltPe sw pe =>
    cases hi
    obtain ⟨hsw, hpe⟩ := unpackLevels_voltPeArg sw pe
    rw [decodePhyReq_word]
    exact congrArg Except.ok (congrArg₂ Instr.phySetVoltPe hsw hpe)
  | phySetPattern p => cases hi; cases p <;> rfl
  | phySetEnhFrame a => cases hi; revert a; decide
  | _ => cases hi

/-- The argument of `PHY_SET_VOLT_PE` is put together from its levels (R108). -/
theorem voltPeArg_unpackLevels (arg : BitVec 16) :
    voltPeArg (unpackLevels arg 0) (unpackLevels arg 8) = arg := by
  have hlevel : ∀ k i b, i < 4 → b < 2 →
      ((unpackLevels arg k).toList.getD i 0).getLsbD b = arg.getLsbD (k + 2 * i + b) := by
    intro k i b hi hb
    rw [(unpackLevels arg k).getD_toList ⟨i, hi⟩, unpackLevels, Lanes.get_ofFn]
    simp [hb]
  apply BitVec.eq_of_getLsbD_eq
  intro j hj
  rw [voltPeArg_getLsbD _ _ j hj]
  split
  · rw [hlevel _ _ _ (by omega) (by omega), show 0 + 2 * (j / 2) + j % 2 = j by omega]
  · rw [hlevel _ _ _ (by omega) (by omega), show 8 + 2 * ((j - 8) / 2) + j % 2 = j by omega]

/-- The arguments that the decoder reads with an op are those below this number (R108, log entry 20). -/
def phyArgLimit : PhyOpc → Nat
  | .reset => 2 | .setLinkRate => 4 | .setLaneCount => 8 | .modeSetting => 1 | .postInit => 1
  | .waitPllLock => 1 | .setVoltPe => 65536 | .setPattern => 5 | .setEnhFrame => 2

/-- An argument below `2 ^ k` is a field of `k` bits. -/
theorem exists_setWidth_eq {k : Nat} {arg : BitVec 16} (h : arg.toNat < 2 ^ k) :
    ∃ x : BitVec k, x.setWidth 16 = arg := by
  refine ⟨BitVec.ofNat k arg.toNat, BitVec.eq_of_toNat_eq ?_⟩
  rw [BitVec.toNat_setWidth, BitVec.toNat_ofNat, Nat.mod_eq_of_lt h, Nat.mod_eq_of_lt arg.isLt]

theorem exists_argOfBit_eq {arg : BitVec 16} (h : arg.toNat < 2) : ∃ a, argOfBit a = arg := by
  obtain ⟨x, rfl⟩ := exists_setWidth_eq (k := 1) h
  exact ⟨x.getLsbD 0, by clear h; revert x; decide⟩

theorem exists_patternArg_eq {arg : BitVec 16} (h : arg.toNat < 5) :
    ∃ p, (Pattern.code p).setWidth 16 = arg := by
  obtain ⟨c, rfl⟩ := exists_setWidth_eq (k := 3) (h.trans (by decide))
  have hc : c.toNat ≤ 4 := by
    have hmod : c.toNat % 2 ^ 16 = c.toNat := Nat.mod_eq_of_lt (c.isLt.trans (by decide))
    rw [BitVec.toNat_setWidth, hmod] at h
    omega
  obtain ⟨p, hp⟩ := (exists_patternCode_iff c).mpr hc
  exact ⟨p, by rw [hp]⟩

/-- Each request whose argument is below the limit of its op is the word of a row (R108). -/
theorem exists_phyRow {op : PhyOpc} {arg : BitVec 16} (h : arg.toNat < phyArgLimit op) :
    ∃ i, encode i = .phyReq (phyReqWord op arg) := by
  have hzero : arg.toNat < 1 → 0 = arg := fun h => BitVec.eq_of_toNat_eq (Nat.lt_one_iff.mp h).symm
  cases op with
  | reset => obtain ⟨a, rfl⟩ := exists_argOfBit_eq h; exact ⟨.phyReset a, rfl⟩
  | setLinkRate => obtain ⟨r, rfl⟩ := exists_setWidth_eq (k := 2) h; exact ⟨.phySetLinkRate r, rfl⟩
  | setLaneCount => obtain ⟨n, rfl⟩ := exists_setWidth_eq (k := 3) h; exact ⟨.phySetLaneCount n, rfl⟩
  | modeSetting => obtain rfl := hzero h; exact ⟨.phyModeSetting, rfl⟩
  | postInit => obtain rfl := hzero h; exact ⟨.phyPostInit, rfl⟩
  | waitPllLock => obtain rfl := hzero h; exact ⟨.phyWaitPllLock, rfl⟩
  | setVoltPe =>
    refine ⟨.phySetVoltPe (unpackLevels arg 0) (unpackLevels arg 8), ?_⟩
    rw [encode, voltPeArg_unpackLevels]
  | setPattern => obtain ⟨p, rfl⟩ := exists_patternArg_eq h; exact ⟨.phySetPattern p, rfl⟩
  | setEnhFrame => obtain ⟨a, rfl⟩ := exists_argOfBit_eq h; exact ⟨.phySetEnhFrame a, rfl⟩

/-- An argument with an unused bit set is rejected (R108, U6). -/
theorem whenArgClear_rejects {k m : Nat} {arg : BitVec 16} (i : Instr) (hkm : 16 ≤ k + m)
    (h : ¬ arg.toNat < 2 ^ k) : whenArgClear (arg.extractLsb' k m == 0) i = .error .phyArgNeverDriven := by
  rw [← extractLsb'_top_eq_zero_iff arg hkm] at h
  simp only [whenArgClear, beq_iff_eq, h, if_false]

/-- The argument of `PHY_SET_PATTERN` is a pattern enum with no unused bit set (R108). -/
theorem decodePhyArg_setPattern (arg : BitVec 16) : decodePhyArg PhyOpc.setPattern.code arg =
    (Pattern.ofCode (arg.extractLsb' 0 3)).elim (.error .phyArgNeverDriven)
      fun p => whenArgClear (arg.extractLsb' 3 13 == 0) (.phySetPattern p) := by
  unfold decodePhyArg
  generalize Pattern.ofCode (arg.extractLsb' 0 3) = p
  cases p <;> rfl

theorem setPattern_rejects {arg : BitVec 16} (h : ¬ arg.toNat < 5) :
    decodePhyArg PhyOpc.setPattern.code arg = .error .phyArgNeverDriven := by
  by_cases h8 : arg.toNat < 2 ^ 3
  · obtain ⟨c, rfl⟩ := exists_setWidth_eq h8
    clear h8
    revert c
    decide
  · rw [decodePhyArg_setPattern]
    cases Pattern.ofCode (arg.extractLsb' 0 3) with
    | none => rfl
    | some p => exact whenArgClear_rejects _ (by decide) h8

/-- Every other argument is rejected (R108, U6). -/
theorem decodePhyArg_rejects {op : PhyOpc} {arg : BitVec 16} (h : ¬ arg.toNat < phyArgLimit op) :
    decodePhyArg op.code arg = .error .phyArgNeverDriven := by
  have hnonzero : ¬ arg.toNat < 1 → ∀ i, whenArgClear (arg == 0) i = .error .phyArgNeverDriven := by
    intro h i
    have hne : arg ≠ 0 := by
      rintro rfl
      exact h (by decide)
    simp only [whenArgClear, beq_iff_eq, hne, if_false]
  cases op with
  | reset => exact whenArgClear_rejects _ (by decide) h
  | setLinkRate => exact whenArgClear_rejects _ (by decide) h
  | setLaneCount => exact whenArgClear_rejects _ (by decide) h
  | modeSetting => exact hnonzero h _
  | postInit => exact hnonzero h _
  | waitPllLock => exact hnonzero h _
  | setVoltPe => exact absurd arg.isLt h
  | setPattern => exact setPattern_rejects h
  | setEnhFrame => exact whenArgClear_rejects _ (by decide) h

/-- Ops 0 and 10 to 15 are rejected (U6). -/
theorem decodePhyArg_unissued {op : BitVec 4} (h : ¬ ∃ x, PhyOpc.code x = op) (arg : BitVec 16) :
    decodePhyArg op arg = .error .phyOpNeverIssued := by
  have hne : ∀ x, op ≠ PhyOpc.code x := fun x hx => h ⟨x, hx.symm⟩
  simp only [decodePhyArg, show op ≠ 1 from hne .reset, show op ≠ 2 from hne .setLinkRate,
    show op ≠ 3 from hne .setLaneCount, show op ≠ 4 from hne .modeSetting, show op ≠ 5 from hne .postInit,
    show op ≠ 6 from hne .waitPllLock, show op ≠ 7 from hne .setVoltPe, show op ≠ 8 from hne .setPattern,
    show op ≠ 9 from hne .setEnhFrame, if_false]

/-- The op of a request is one of R108 and its argument is below the limit of that op. -/
def PhyReqKnown (w : BitVec 20) : Prop :=
  ∃ op, PhyOpc.code op = w.extractLsb' 0 4 ∧ (w.extractLsb' 4 16).toNat < phyArgLimit op

/-- The ops and the limits of their arguments in numbers (R108). -/
theorem exists_phyOpc_lt_iff (op : BitVec 4) (arg : BitVec 16) :
    (∃ x, PhyOpc.code x = op ∧ arg.toNat < phyArgLimit x) ↔
      (op.toNat = 1 ∧ arg.toNat < 2) ∨ (op.toNat = 2 ∧ arg.toNat < 4) ∨ (op.toNat = 3 ∧ arg.toNat < 8) ∨
      ((op.toNat = 4 ∨ op.toNat = 5 ∨ op.toNat = 6) ∧ arg.toNat = 0) ∨ op.toNat = 7 ∨
      (op.toNat = 8 ∧ arg.toNat ≤ 4) ∨ (op.toNat = 9 ∧ arg.toNat < 2) := by
  constructor
  · rintro ⟨x, rfl, h⟩
    cases x <;> simp [phyArgLimit, PhyOpc.code] at h ⊢ <;> omega
  · have hcode : ∀ k, op.toNat = k → BitVec.ofNat 4 k = op := by
      rintro k rfl
      simp
    rintro (⟨h, hn⟩ | ⟨h, hn⟩ | ⟨h, hn⟩ | ⟨h | h | h, hn⟩ | h | ⟨h, hn⟩ | ⟨h, hn⟩)
    · exact ⟨.reset, hcode 1 h, hn⟩
    · exact ⟨.setLinkRate, hcode 2 h, hn⟩
    · exact ⟨.setLaneCount, hcode 3 h, hn⟩
    · exact ⟨.modeSetting, hcode 4 h, Nat.lt_one_iff.mpr hn⟩
    · exact ⟨.postInit, hcode 5 h, Nat.lt_one_iff.mpr hn⟩
    · exact ⟨.waitPllLock, hcode 6 h, Nat.lt_one_iff.mpr hn⟩
    · exact ⟨.setVoltPe, hcode 7 h, arg.isLt⟩
    · exact ⟨.setPattern, hcode 8 h, Nat.lt_succ_of_le hn⟩
    · exact ⟨.setEnhFrame, hcode 9 h, hn⟩

theorem PhyReqKnown.exists_row {w : BitVec 20} : PhyReqKnown w → ∃ i, encode i = .phyReq w := by
  rintro ⟨op, hop, harg⟩
  rw [← phyReqWord_of_word hop]
  exact exists_phyRow harg

theorem decodePhyReq_rejects {w : BitVec 20} (h : ¬ PhyReqKnown w) : ∃ why, decodePhyReq w = .error why := by
  by_cases hop : ∃ x, PhyOpc.code x = w.extractLsb' 0 4
  · obtain ⟨op, hop⟩ := hop
    refine ⟨.phyArgNeverDriven, ?_⟩
    rw [decodePhyReq, ← hop, decodePhyArg_rejects fun harg => h ⟨op, hop, harg⟩]
  · exact ⟨.phyOpNeverIssued, decodePhyArg_unissued hop _⟩

/-- Which PHY requests decode (R108). -/
theorem phyReq_decodes_iff (w : BitVec 20) : (∃ i, decodePhyReq w = .ok i) ↔ PhyReqKnown w := by
  constructor
  · rintro ⟨i, hi⟩
    by_contra hw
    obtain ⟨why, herr⟩ := decodePhyReq_rejects hw
    cases herr.symm.trans hi
  · intro hw
    obtain ⟨i, hi⟩ := hw.exists_row
    exact ⟨i, decodePhyReq_of_encode hi⟩

/-- A PHY request decodes to the row whose word it is. -/
theorem encode_of_decodePhyReq {w : BitVec 20} {i : Instr} (h : decodePhyReq w = .ok i) :
    encode i = .phyReq w := by
  obtain ⟨j, hj⟩ := ((phyReq_decodes_iff w).mp ⟨i, h⟩).exists_row
  obtain rfl : j = i := Except.ok.inj ((decodePhyReq_of_encode hj).symm.trans h)
  exact hj

/-! ### AUXREQ -/

/-- An AUX request is put together from its fields (R107). -/
theorem auxReqWord_of_word (w : BitVec auxReqWidth) :
    auxReqWord (.ofBool (w.getLsbD 0)) (w.extractLsb' 1 20) (w.extractLsb' 21 5)
      (w.extractLsb' 26 128) = w := by
  apply BitVec.eq_of_getLsbD_eq
  intro j (hj : j < 154)
  rw [auxReqWord_getLsbD]
  simp only [BitVec.getLsbD_extractLsb']
  split_ifs with h1 h2 h3
  · obtain rfl : j = 0 := by omega
    simp
  · simp [show j - 1 < 20 by omega, show 1 + (j - 1) = j by omega]
  · simp [show j - 21 < 5 by omega, show 21 + (j - 21) = j by omega]
  · simp [show j - 26 < 128 by omega, show 26 + (j - 26) = j by omega]

/-- What the fields of an AUX request decode to (R107). -/
theorem auxInstr_ok_iff (rw : Bool) (addr : Addr) (len : BitVec 5) (data : BitVec 128) (i : Instr) :
    auxInstr rw addr len data = .ok i ↔ (1 ≤ len.toNat ∧ len.toNat ≤ 16) ∧
      (rw = false ∧ data = 0 ∧ .auxRd addr len = i ∨
        rw = true ∧ data >>> (8 * len.toNat) = 0 ∧ .auxWr addr len data = i) := by
  unfold auxInstr
  by_cases hlen : 1 ≤ len.toNat ∧ len.toNat ≤ 16
  · rw [if_neg (by omega)]
    cases rw with
    | false => by_cases hdata : data = 0#128 <;> simp [hlen, hdata]
    | true => by_cases hdata : data >>> (8 * len.toNat) = 0#128 <;> simp [hlen, hdata]
  · rw [if_pos (by omega)]
    simp [hlen]

/-- The word of a well-formed AUXREQ row decodes to it (R107). -/
theorem decodeAuxReq_of_encode {i : Instr} {w : BitVec auxReqWidth} (hwf : i.wf = true)
    (hi : encode i = .auxReq w) : decodeAuxReq w = .ok i := by
  cases i with
  | auxRd addr len =>
    cases hi
    simp only [Instr.wf, Bool.and_eq_true, decide_eq_true_eq] at hwf
    rw [decodeAuxReq_word, auxInstr_ok_iff]
    exact ⟨hwf, .inl ⟨rfl, rfl, rfl⟩⟩
  | auxWr addr len data =>
    cases hi
    simp only [Instr.wf, Bool.and_eq_true, decide_eq_true_eq, beq_iff_eq] at hwf
    rw [decodeAuxReq_word, auxInstr_ok_iff]
    exact ⟨hwf.1, .inr ⟨rfl, hwf.2, rfl⟩⟩
  | _ => cases hi

/-- An AUX request decodes to the row whose word it is. -/
theorem encode_of_decodeAuxReq {w : BitVec auxReqWidth} {i : Instr} (h : decodeAuxReq w = .ok i) :
    encode i = .auxReq w := by
  obtain ⟨-, ⟨hrw, hdata, rfl⟩ | ⟨hrw, -, rfl⟩⟩ := (auxInstr_ok_iff _ _ _ _ _).mp h
  · conv_rhs => rw [← auxReqWord_of_word w, hrw]
    exact congrArg (fun d => TableWord.auxReq (auxReqWord 0 _ _ d)) hdata.symm
  · conv_rhs => rw [← auxReqWord_of_word w, hrw]
    rfl

/-- Which AUX requests decode (R107, R112). -/
theorem auxReq_decodes_iff (w : BitVec 154) : (∃ i, decodeAuxReq w = .ok i) ↔
    1 ≤ (w.extractLsb' 21 5).toNat ∧ (w.extractLsb' 21 5).toNat ≤ 16 ∧
      (w.getLsbD 0 = false → w.extractLsb' 26 128 = 0) ∧
      (w.getLsbD 0 = true → w.extractLsb' 26 128 >>> (8 * (w.extractLsb' 21 5).toNat) = 0) := by
  show (∃ i, auxInstr (w.getLsbD 0) (w.extractLsb' 1 20) (w.extractLsb' 21 5)
    (w.extractLsb' 26 128) = .ok i) ↔ _
  simp only [auxInstr_ok_iff]
  cases w.getLsbD 0 <;> simp [and_assoc]

/-! ### The obligations -/

/-- Settles O1, format by format: only the AUX requests need well-formedness. -/
theorem decodeEncode : Obligations.DecodeEncode := by
  intro i hwf
  cases h : encode i with
  | cmd w => exact congrArg Except.ok (decodeCmd_of_encode h)
  | st w => exact decodeSt_of_encode h
  | res w => exact decodeRes_of_encode h
  | phase w => exact decodePhase_of_encode h
  | phyReq w => exact decodePhyReq_of_encode h
  | auxReq w => exact decodeAuxReq_of_encode hwf h
  | dpcd102 w => exact decodeTpset_of_encode h
  | dpcd100 w => exact decodeRate_of_encode h

/-- Settles O2, format by format. -/
theorem encodeDecode : Obligations.EncodeDecode := by
  intro t i h
  cases t with
  | cmd w => cases h; exact encode_decodeCmd w
  | st w => obtain ⟨x, rfl, rfl⟩ := (decodeSt_ok_iff w i).mp h; exact encode_stateInstr x
  | res w => obtain ⟨r, rfl, rfl⟩ := (decodeRes_ok_iff w i).mp h; exact encode_resRow r.2
  | phase w => obtain ⟨p, rfl, rfl⟩ := (decodePhase_ok_iff w i).mp h; exact encode_phaseRow p
  | phyReq w => exact encode_of_decodePhyReq h
  | auxReq w => exact encode_of_decodeAuxReq h
  | dpcd102 w => obtain ⟨p, rfl, rfl⟩ := (decodeTpset_ok_iff w i).mp h; exact encode_patternRow p
  | dpcd100 w => obtain ⟨r, rfl, rfl⟩ := (decodeRate_ok_iff w i).mp h; exact encode_rateRow r

/-- Settles O3: the words of the rows, format by format. -/
theorem unusedCodesRejected : Obligations.UnusedCodesRejected := by
  refine ⟨fun w => ⟨_, rfl⟩, fun w => ?st, fun w => ?phase, fun w => ?res, fun w => ?phyReq,
    auxReq_decodes_iff, fun w => ?dpcd102, fun w => ?dpcd100⟩
  case st => exact (decodes_iff_exists_code (decodeSt_ok_iff w)).trans (exists_fsmCode_iff w)
  case phase => exact (decodes_iff_exists_code (decodePhase_ok_iff w)).trans (exists_phaseCode_iff w)
  case res => exact (decodes_iff_exists_code (decodeRes_ok_iff w)).trans (exists_resWord_iff w)
  case phyReq => exact (phyReq_decodes_iff w).trans (exists_phyOpc_lt_iff _ _)
  case dpcd102 => exact (decodes_iff_exists_code (decodeTpset_ok_iff w)).trans (exists_tpsetByte_iff w)
  case dpcd100 => exact (decodes_iff_exists_code (decodeRate_ok_iff w)).trans (exists_rateCode_iff w)

/-- Settles O4, by evaluating the decoder on the ten words. -/
theorem decodedWords : Obligations.DecodedWords := by
  unfold Obligations.DecodedWords
  decide

end Sys2Proof.Machine
end

section
/-! PROOF. The rows of RES, DPCD102 and DPCD100 run (R67, R92, R96, R98, R136): O35, O41, O42. -/

namespace Sys2Proof.Machine

open Sys2Proof

/-- The row of a result completes the command with it (R92, R136). -/
theorem exec_resRow {r : ResultRegs} (hv : r.valid = true) (s : State) :
    exec r.instr s = .next (endAction (completeWith r s)) := by
  obtain ⟨v, op, code, ph, rate, lanes⟩ := r
  subst hv
  cases code <;> rfl

/-- Settles O35: each row is that of a result, and so is `Done`. -/
theorem resultRowsComplete : Obligations.ResultRowsComplete := by
  refine ⟨fun op ph r n s => ?_, fun code s => exec_resRow (r := s.result code) rfl s⟩
  have hrow : ∀ code, exec (ResultRegs.instr ⟨true, op, code, ph, r, n⟩) s =
      .next { completed ⟨true, op, code, ph, r, n⟩ s with held := Held.empty } := fun _ => exec_resRow rfl s
  exact ⟨hrow .ok, hrow .linkUnplugged, hrow .trainingExhausted, hrow .capabilityMismatch,
    hrow .auxTransportError, hrow .retrainRequired, hrow .badCommand⟩

/-- The row of a pattern byte is its write (R98). -/
theorem exec_patternRow (p : Pattern) (s : State) :
    exec (patternRow p) s = runAction (writePatternByte Config.hw p) s := by
  cases p <;> rfl

/-- Settles O41: the row of a pattern is one write of its byte. -/
theorem patternRowsWrite : Obligations.PatternRowsWrite := by
  intro s e w hs hw he
  have hrow : ∀ p, exec (patternRow p) s =
      .next (s.afterAux e (w.writeEvents 0x102 [tpsetByte Config.hw p]) w) := fun p =>
    (exec_patternRow p s).trans ((memWrite_ends _ _ hw).runAction_ok hs he)
  exact ⟨hrow .normal, hrow .tps1, hrow .tps2, hrow .tps3, hrow .tps4⟩

/-- The row of a rate is the link configuration write at that rate (R96, R163). -/
theorem exec_rateRow (r : RateIdx) (s : State) :
    exec (rateRow r) s = runAction (writeLinkConfig Config.hw r) s := by
  have hr : r = 0 ∨ r = 1 ∨ r = 2 ∨ r = 3 := by revert r; decide
  rcases hr with rfl | rfl | rfl | rfl <;> rfl

/-- The byte of `LANE_COUNT_SET`: the lane count, and the enhanced-frame bit at bit 7 (R100). -/
theorem laneCountSetByte_eq (n : LaneCount) (efc : Bool) :
    laneCountSetByte Config.hw n efc = n.setWidth 8 ||| (if efc then 0x80 else 0x00) := by
  cases efc <;> rfl

/-- Settles O42: the row of a rate is one write of its code and the lane count. -/
theorem rateRowsWrite : Obligations.RateRowsWrite := by
  intro s e w hs hw he lcs
  have hlcs : laneCountSetByte Config.hw s.ses.curLanes s.ses.capEfc = lcs := laneCountSetByte_eq _ _
  have hrow : ∀ r, exec (rateRow r) s =
      .next (s.afterAux e (w.writeEvents 0x100 [rateCode Config.hw r, lcs]) w) := by
    intro r
    rw [exec_rateRow, ← hlcs]
    exact (Ends.get (memWrite_ends _ _ hw)).runAction_ok hs he
  exact ⟨hrow 0, hrow 1, hrow 2, hrow 3⟩

end Sys2Proof.Machine
end

section
/-! PROOF. The commands (R130 to R137): O10, O11, O13, O14, O15. A CMD row runs the model's own `accept`, the
pseudocode of R130, and `accept` leads to one of the two states that the statements write out. -/

namespace Sys2Proof.Machine

open Sys2Proof

/-! ### Acceptance -/

/-- A latched word that is refused completes with `BAD_COMMAND` (R133, R266). -/
theorem badCommand_latchCommand (w : BitVec 8) (s : State) :
    takeException .badCommand (latchCommand w s) = refusedCommand w s := by
  simp [takeException, doneCmd, completeWith, latchCommand, emit, refusedCommand]

/-- A latched word that starts a session leaves it fresh (R130, R137). -/
theorem startSession_latchCommand (w : BitVec 8) (x : Fsm) (s : State) :
    startSession x (latchCommand w s) = startedCommand w x s := rfl

/-- The legal lane counts, as values of the field (R97). -/
theorem lanesLegal_toNat_iff (n : LaneCount) : lanesLegal n.toNat = true ↔ n = 1 ∨ n = 2 ∨ n = 4 := by
  revert n; decide

/-- The pseudocode of R130, with the states it leads to written out. -/
theorem accept_eq (w : BitVec 8) (s : State) :
    accept w s =
      if w.getLsbD 7 = true ∨ w.extractLsb' 0 2 = 0 ∨ w.extractLsb' 0 2 = 3 then refusedCommand w s
      else if w.extractLsb' 0 2 = 1 then
        if w.extractLsb' 4 3 = 1 ∨ w.extractLsb' 4 3 = 2 ∨ w.extractLsb' 4 3 = 4 then
          startedCommand w .capNeg s
        else refusedCommand w s
      else startedCommand w .healthCheck s := by
  simp only [accept, badCommand_latchCommand, startSession_latchCommand, lanesLegal_toNat_iff]

/-- Bit 7, `op` 0 and `op` 3 are refused (R133). -/
theorem accept_illegal {w : BitVec 8} (s : State)
    (h : w.getLsbD 7 = true ∨ w.extractLsb' 0 2 = 0 ∨ w.extractLsb' 0 2 = 3) :
    accept w s = takeException .badCommand (latchCommand w s) :=
  if_pos h

/-- `op` 1 is a `TRAIN`, refused if its lane count is illegal (R131, R133). -/
theorem accept_train {w : BitVec 8} {lanes : LaneCount} (s : State) (h7 : w.getLsbD 7 = false)
    (hop : w.extractLsb' 0 2 = 1) (hl : w.extractLsb' 4 3 = lanes) :
    accept w s = (if lanesLegal lanes.toNat then startSession .capNeg else takeException .badCommand)
      (latchCommand w s) := by
  rw [accept, h7, hop, hl, if_neg (by decide), if_pos rfl]
  split <;> rfl

/-- `op` 2 is a `CHECK_HEALTH` (R132). -/
theorem accept_checkHealth {w : BitVec 8} (s : State) (h7 : w.getLsbD 7 = false)
    (hop : w.extractLsb' 0 2 = 2) : accept w s = startSession .healthCheck (latchCommand w s) := by
  rw [accept, h7, hop, if_neg (by decide), if_neg (by decide)]

/-! ### The CMD rows -/

/-- A row that does after the latch what the pseudocode does accepts its word in `Idle`, and changes nothing
in a busy block (R130, R135). -/
theorem acceptWord_of_accept {w : BitVec 8} {k : State → State} {s : State}
    (h : accept w s = k (latchCommand w s)) :
    acceptWord w k s = .next (if s.st = .idle then accept w s else s) := by
  rw [acceptWord, h]

/-- Bit 7 and `op` of a word with bit 7 clear (R90, R91). -/
theorem clearWord_fields (x : BitVec 5) (op : BitVec 2) :
    (0#1 ++ x ++ op : BitVec 8).getLsbD 7 = false ∧ (0#1 ++ x ++ op : BitVec 8).extractLsb' 0 2 = op := by
  revert x op; decide

/-- Bit 7 and `init_rate` of the word of a `TRAIN` (R90). -/
theorem cmdWord_train_bit7_rate (rate : RateIdx) (lanes : LaneCount) :
    (cmdWord 0 lanes rate 1).getLsbD 7 = false ∧ (cmdWord 0 lanes rate 1).extractLsb' 2 2 = rate := by
  revert rate lanes; decide

theorem setWord_bit7 (x : BitVec 7) : (1#1 ++ x : BitVec 8).getLsbD 7 = true := by
  revert x; decide

/-- A CMD row runs the pseudocode of R130 on its word, if the block is idle. -/
theorem exec_cmdRow_eq {i : Instr} {w : BitVec 8} (hi : encode i = .cmd w) (s : State) :
    exec i s = .next (if s.st = .idle then accept w s else s) := by
  cases i with
  | train rate lanes =>
    cases hi
    obtain ⟨hop, hl⟩ := cmdWord_train_fields rate lanes
    obtain ⟨h7, -⟩ := cmdWord_train_bit7_rate rate lanes
    exact acceptWord_of_accept (accept_train s h7 hop hl)
  | checkHealth x =>
    cases hi
    obtain ⟨h7, hop⟩ := clearWord_fields x 2
    exact acceptWord_of_accept (accept_checkHealth s h7 hop)
  | illegalOp0 x =>
    cases hi
    exact acceptWord_of_accept (accept_illegal s (.inr (.inl (clearWord_fields x 0).2)))
  | illegalOp3 x =>
    cases hi
    exact acceptWord_of_accept (accept_illegal s (.inr (.inr (clearWord_fields x 3).2)))
  | illegalBit7 x =>
    cases hi
    exact acceptWord_of_accept (accept_illegal s (.inl (setWord_bit7 x)))
  | _ => cases hi

/-- What any command word runs (R130, R135). -/
theorem exec_decodeCmd (w : BitVec 8) (s : State) :
    exec (decodeCmd w) s = .next (if s.st = .idle then accept w s else s) :=
  exec_cmdRow_eq (encode_decodeCmd w) s

/-- A word accepted in `Idle` is taken off the port, and the `done` pulse is over (R37, R130). -/
theorem afterFetch_presented {s : State} {w : BitVec 8} {ws : List (BitVec 8)} (hs : s.st = .idle)
    (hw : s.env.cmds = w :: ws) : afterFetch s = { s with out.done := false, env.cmds := ws } := by
  simp [afterFetch, hs, hw]

/-- Settles O14: the step runs the word's row, and the row runs the pseudocode. -/
theorem acceptanceIsPseudocode : Obligations.AcceptanceIsPseudocode := by
  intro s w ws hs hr hw u
  have hidle : u.st = .idle := hs
  rw [step_of_fetch hr (fetch_presented hs hw), afterFetch_presented hs hw, exec_decodeCmd, if_pos hidle,
    accept_eq]

/-- Settles O10: the pseudocode on the word of a `TRAIN`, whose fields are the operands of the row. -/
theorem trainStartsSession : Obligations.TrainStartsSession := by
  intro s rate lanes hs hl
  obtain ⟨hop, hlanes⟩ := cmdWord_train_fields rate lanes
  obtain ⟨h7, hrate⟩ := cmdWord_train_bit7_rate rate lanes
  rw [exec_cmdRow_eq (i := .train rate lanes) rfl, if_pos hs, accept_train s h7 hop hlanes, if_pos hl,
    startSession_latchCommand, startedCommand, hop, hrate, hlanes]
  rfl

/-- Settles O11: the pseudocode on the word of a `CHECK_HEALTH`, which does not test bits 6:2. -/
theorem checkHealthStartsSession : Obligations.CheckHealthStartsSession := by
  intro s x hs
  obtain ⟨h7, hop⟩ := clearWord_fields x 2#2
  rw [exec_cmdRow_eq (i := .checkHealth x) rfl, if_pos hs, accept_checkHealth s h7 hop,
    startSession_latchCommand]

/-! ### Idle -/

theorem noRequest_of_not_waiting {s : State} (h : s.waiting = false) : NoRequest s := by
  simpa [State.waiting, NoRequest, and_assoc] using h

/-- With no request driven there is none to drop. -/
theorem dropRequests_of_noRequest {s : State} (h : NoRequest s) : dropRequests s = s := by
  obtain ⟨ha, hp, hw⟩ := h
  calc dropRequests s
      = { s with out.auxReq := s.out.auxReq, out.phyReq := s.out.phyReq, out.waitReq := s.out.waitReq } := by
        rw [ha, hp, hw]; rfl
    _ = s := rfl

/-- The action of `Idle` changes nothing in a block that neither waits nor holds an answer (R134). -/
theorem exec_stIdle {s : State} (hs : s.st = .idle) (hh : s.held = Held.empty) (hw : s.waiting = false) :
    exec .stIdle s = .next s := by
  have hgo : goTo .idle s = s := by rw [goTo, ← hs]
  rw [idle_step, atStart, hgo, dropRequests_of_noRequest (noRequest_of_not_waiting hw), endAction, ← hh]

/-- With no word presented, a fetch ends the `done` pulse and nothing else (R37, R134). -/
theorem afterFetch_nothing {s : State} (hw : s.env.cmds = []) :
    afterFetch s = { s with out.done := false } := by
  rw [afterFetch, hw, List.tail_nil, ite_self, ← hw]

/-- Settles O15: the action of `Idle`, in the state the fetch leaves. -/
theorem idleStays : Obligations.IdleStays := by
  refine ⟨fun s => exec_stIdle, fun s hs hh hw hr hc => ?_⟩
  have hidle : fetch s = .ok .stIdle := by rw [fetch_state (.inr hc), hs, stateInstr]
  rw [step_of_fetch hr hidle, afterFetch_nothing hc]
  exact exec_stIdle hs hh hw

/-! ### Busy -/

/-- From `s` to `t` no command word is accepted: none is taken off the port, none is latched, and no event
says so. -/
def AcceptsNothing (s t : State) : Prop :=
  t.env.cmds = s.env.cmds ∧ t.cmd = s.cmd ∧ ∃ es, t.trace = s.trace ++ es ∧ ∀ w, Event.cmd w ∉ es

theorem not_auxEvents_cmd (q : AuxReq) (w : BitVec 8) : ¬ auxEvents q (.cmd w) := by
  cases q <;> simp [auxEvents, AuxReq.event]

/-- No action makes a `CMD` event (R135). -/
theorem not_actionEvent_cmd (s : State) (x : Fsm) (w : BitVec 8) : ¬ actionEvent s x (.cmd w) := by
  cases x with
  | idle | reduceLinkRate | linkUnplugged => exact id
  | capNeg | failed => exact not_auxEvents_cmd _ w
  | phySetup => simp [actionEvent, phySetupEvent, phyBlockEvents, not_auxEvents_cmd]
  | clockRecovery | equalization => simp [actionEvent, roundEvent, not_auxEvents_cmd]
  | equalizationSetup => simp [actionEvent, eqSetupEvent, not_auxEvents_cmd]
  | success => simp [actionEvent, successEvent, not_auxEvents_cmd]
  | healthCheck => simp [actionEvent, healthEvent, not_auxEvents_cmd]

/-- The input and output of an action accept nothing. -/
theorem IoOnly.acceptsNothing {s u : State} (hs : s.st ≠ .idle)
    (h : IoOnly (actionEvent s s.st) (actionStart s) u) : AcceptsNothing s u := by
  obtain ⟨es, hes, hev⟩ := h.events
  have hcmds : (actionStart s).env.cmds = s.env.cmds := by simp [actionStart, hs]
  exact ⟨h.cmds.trans hcmds, h.cmd, es, hes, fun w hw => not_actionEvent_cmd s s.st w (hev _ hw)⟩

/-- The end of an action leaves the inputs as they are. -/
theorem ActionEnd.env {u v : State} {x : Fsm} (h : ActionEnd u x v) : v.env = u.env := by
  cases h with
  | adjusts h => cases h <;> rfl
  | _ => rfl

/-- The end of an action adds at most a `DONE` to the events. -/
theorem ActionEnd.acceptsNothing {s u v : State} {x : Fsm} (h : ActionEnd u x v)
    (hu : AcceptsNothing s u) : AcceptsNothing s v := by
  obtain ⟨hcmds, hcmd, es, hes, hev⟩ := hu
  refine ⟨by rw [h.env, hcmds], h.keeps.cmd.trans hcmd, ?_⟩
  rcases h.done_or_same with ⟨code, rfl⟩ | ⟨-, -, ht⟩
  · exact ⟨es ++ [.done (u.result code)], by rw [← List.append_assoc, ← hes]; rfl, by simpa using hev⟩
  · exact ⟨es, ht.trans hes, hev⟩

/-- Settles O13: a busy block never runs a CMD row, and such a row would change nothing. -/
theorem busyAcceptsNothing : Obligations.BusyAcceptsNothing := by
  refine ⟨fun w s hs => by rw [exec_decodeCmd, if_neg hs], fun s t hs hr h => ?_⟩
  show AcceptsNothing s t
  cases step_cases h with
  | resets hr' _ => simp [hr] at hr'
  | accepts w _ hs' _ => exact absurd hs' hs
  | idles _ hs' _ => exact absurd hs' hs
  | acts _ _ hact =>
    rcases hact with ⟨hio, -, -⟩ | ⟨u, v, hio, -, -, hend, rfl⟩
    · exact hio.acceptsNothing hs
    · exact hend.acceptsNothing (hio.acceptsNothing hs)

end Sys2Proof.Machine
end

section
/-! PROOF. `CapNeg` with its read answered (R150 to R153, R261): O16, O17. What the sink's bytes say is a `Caps`
(R105, R222); its action is one read, then registers are written, and an exception may follow. -/

namespace Sys2Proof.Machine

open Sys2Proof

/-! ### Actions that end with a write of registers -/

/-- The run ends with `f` written to the registers. -/
abbrev writesIn (f : State → State) : Run → EStateM.Result Stop Run Unit :=
  fun r => .ok () { r with s := f r.s }

/-- The run writes `f` to the registers and raises an exception. -/
abbrev writesThenRaises (f : State → State) (x : Exn) : Run → EStateM.Result Stop Run Unit :=
  fun r => raisesIn x { r with s := f r.s }

/-- Writing `f` neither reads nor changes the held answers. -/
def IgnoresHeld (f : State → State) : Prop :=
  ∀ (u : State) (d : Held), f { u with held := d } = { f u with held := d }

theorem IgnoresHeld.held {f : State → State} (hf : IgnoresHeld f) (u : State) : (f u).held = u.held :=
  (congrArg State.held (hf u u.held) :)

/-- The end of the action drops the answers that it held. -/
theorem IgnoresHeld.endAction {f : State → State} (hf : IgnoresHeld f) {u : State}
    (hu : u.held = Held.empty) (d : Held) : endAction (f { u with held := d }) = f u := by
  rw [hf, Machine.endAction, ← hu, ← hf.held]

section Writes

variable {a : Act Unit} {f : State → State} {s : State} {e : Env} {d : Held} {evs : List Event} {c : BitVec 3}

/-- What makes no transaction runs on the state as it stands. -/
theorem Ends.of_apply {out : Run → EStateM.Result Stop Run Unit} (h : ∀ r, a r = out r) :
    Ends a s e out Held.empty [] s.auxTry := by
  intro _ henv
  rw [Env.before_empty] at henv
  rw [← henv, State.via_nothing]
  exact h _

/-- The action ends with its last write. -/
theorem Ends.runAction_writes (h : Ends a (dropRequests s) e (writesIn f) d evs c) (hf : IgnoresHeld f)
    (hs : s.held = Held.empty) (he : s.env = e.before d) :
    runAction a s = .next (f { s.afterPorts e evs with auxTry := c }) := by
  unfold runAction
  rw [h.run hs he]
  exact congrArg Host.Outcome.next (hf.endAction (u := { s.afterPorts e evs with auxTry := c }) hs d)

/-- The exception is taken after the last write, which stays (R271). -/
theorem Ends.runAction_writesThenRaises {x : Exn} (h : Ends a (dropRequests s) e (writesThenRaises f x) d evs c)
    (hf : IgnoresHeld f) (hs : s.held = Held.empty) (he : s.env = e.before d) :
    runAction a s = .next (takeException x (f { s.afterPorts e evs with auxTry := c })) := by
  have hu : (f { s.afterPorts e evs with auxTry := c }).held = Held.empty := (hf.held _).trans hs
  unfold runAction
  rw [h.run hs he]
  exact congrArg Host.Outcome.next
    ((congrArg (fun u => endAction (takeException x u)) (hf _ d)).trans (endAction_takeException x hu d))

end Writes

/-! ### The capability burst -/

/-- Byte `k` of a burst that was read from the data bus (R68). -/
theorem burstByte_dataBytes (d : BitVec 128) {n k : Nat} (h : k < n) :
    burstByte (dataBytes d n) k = dataByte d k := by
  simp [burstByte, dataBytes, List.getD, h]

/-- The fields of the capabilities, in the bytes of the data bus (R105, R222). -/
theorem parseCaps_dataBytes (d : BitVec 128) :
    parseCaps Config.hw (dataBytes d 16) = {
      rateLegal := (rateIndex Config.hw (dataByte d 1)).isSome
      maxRate := (rateIndex Config.hw (dataByte d 1)).getD 0
      maxLanes := (dataByte d 2 &&& 0x1F).setWidth 5
      lanesLegal := lanesLegal (dataByte d 2 &&& 0x1F).toNat
      tps3 := (dataByte d 2).getLsbD 6
      efc := (dataByte d 2).getLsbD 7
      tps4 := (dataByte d 3).getLsbD 7
      rdInterval := (dataByte d 14).extractLsb' 0 7 } := by
  have hmask : ∀ b : Byte, b.setWidth 7 &&& 0x7F#7 = b.extractLsb' 0 7 := by decide
  simp [parseCaps, burstByte_dataBytes, hmask]

/-- The lower of two lane counts, as a number (R153). -/
theorem startLanes_eq_min (n : LaneCount) (m : BitVec 5) :
    startLanes n m = BitVec.ofNat 3 (min n.toNat m.toNat) := by
  unfold startLanes
  split
  · rw [Nat.min_eq_left ‹_›, BitVec.ofNat_toNat, BitVec.setWidth_eq]
  · rw [Nat.min_eq_right (by omega), BitVec.ofNat_toNat]

/-- The lane field fits five bits (R105). -/
theorem toNat_lanesField (b : Byte) : ((b &&& 0x1F).setWidth 5).toNat = (b &&& 0x1F).toNat := by
  revert b; decide

/-! ### The action -/

section CapNeg

variable {s : State} {e : Env} {x : Attempts}

/-- `CapNeg` reads the capability burst and ends as `out` says of its bytes (R150). -/
theorem capNeg_ends {f : List Byte → Act Unit} {out : Run → EStateM.Result Stop Run Unit}
    (hx : x.answered = true) (h : ∀ r, f (x.bytes 16) r = out r) :
    Ends (memRead Config.hw 0x000 16 >>= f) s e out x.answers (x.readEvents 0x000 16) x.tries :=
  ((memRead_ends 0x000 16 hx).bind (.of_apply h)).cast (Held.append_empty _) (List.append_nil _) rfl

/-- On legal capabilities they and the starting pair are latched (R151, R153). -/
theorem exec_capNeg_legal (hs : s.held = Held.empty) (he : s.env = e.before x.answers)
    (hx : x.answered = true) (hr : (parseCaps Config.hw (x.bytes 16)).rateLegal = true)
    (hl : (parseCaps Config.hw (x.bytes 16)).lanesLegal = true) :
    let caps := parseCaps Config.hw (x.bytes 16)
    exec .stCapNeg s = .next (goTo .phySetup (latchStart caps (latchCaps caps
      ((setPhase .capNeg s).afterAux e (x.readEvents 0x000 16) x)))) := by
  intro caps
  refine (runAction_phase _ _ _).trans
    (Ends.runAction_writes (s := setPhase .capNeg (goTo .capNeg s))
      (f := fun u => goTo .phySetup (latchStart caps (latchCaps caps u)))
      (capNeg_ends hx fun r => ?_) (fun _ _ => rfl) hs he)
  rw [act_bind]
  simp [caps, hr, hl]

/-- On illegal ones they are latched and `CapabilityMismatch` is raised (R152). -/
theorem exec_capNeg_illegal (hs : s.held = Held.empty) (he : s.env = e.before x.answers)
    (hx : x.answered = true) (h : (parseCaps Config.hw (x.bytes 16)).rateLegal = false ∨
      (parseCaps Config.hw (x.bytes 16)).lanesLegal = false) :
    exec .stCapNeg s = .next (enterFailed .capabilityMismatch (latchCaps (parseCaps Config.hw (x.bytes 16))
      ((setPhase .capNeg s).afterAux e (x.readEvents 0x000 16) x))) := by
  refine (runAction_phase _ _ _).trans
    (Ends.runAction_writesThenRaises (x := .capabilityMismatch)
      (s := setPhase .capNeg (goTo .capNeg s)) (f := latchCaps (parseCaps Config.hw (x.bytes 16)))
      (capNeg_ends hx fun r => ?_) (fun _ _ => rfl) hs he)
  rw [act_bind]
  rcases h with h | h <;> simp [h]

end CapNeg

/-! ### The obligations -/

/-- Settles O16: the capabilities of a known rate code and a legal lane field are legal. -/
theorem capNegStarts : Obligations.CapNegStarts := by
  intro s e x r hs he hx c hr hl
  have hcaps : parseCaps Config.hw (x.bytes 16) = _ := parseCaps_dataBytes c
  rw [exec_capNeg_legal hs he hx (by simp [hcaps, hr]) (by rw [hcaps]; exact hl), hcaps, hr,
    ← toNat_lanesField, ← startLanes_eq_min]
  rfl

/-- Settles O17: an unknown rate code or an illegal lane field makes the capabilities illegal. -/
theorem capNegMismatch : Obligations.CapNegMismatch := by
  intro s e x hs he hx c hc
  have hcaps : parseCaps Config.hw (x.bytes 16) = _ := parseCaps_dataBytes c
  have hillegal : (parseCaps Config.hw (x.bytes 16)).rateLegal = false ∨
      (parseCaps Config.hw (x.bytes 16)).lanesLegal = false := by
    rw [hcaps]
    exact hc.imp (fun hr => by simp [hr]) id
  rw [exec_capNeg_illegal hs he hx hillegal, hcaps]
  rfl

end Sys2Proof.Machine
end

section
/-! PROOF. `PhySetup` with its writes answered (R160 to R164): O19; and the poll points that read 1 (R160, R170,
R197, R268): O34. -/

namespace Sys2Proof.Machine

open Sys2Proof

variable {s u : State} {e : Env}

/-! ### PhySetup answered -/

/-- The bytes of the link configuration write are of session registers only (R163). -/
theorem linkConfig_of_ses {v : State} (hv : v.ses = u.ses) : v.linkConfig = u.linkConfig := by
  unfold State.linkConfig
  rw [hv]

/-- The lines of `PhySetup` after its PHY block, both writes answered (R163, R164). -/
theorem phySetupLink_ends {v : State} {x y : Attempts} (hv : v.ses = u.ses) (hx : x.answered = true)
    (hy : y.answered = true) :
    Ends (phySetupLink u.ses.curRate) v e (writesIn (goTo .clockRecovery))
      ⟨x.responses ++ y.responses, 1, [], x.waits + y.waits, []⟩
      (x.writeEvents 0x100 u.linkConfig ++ [.phy .setPattern 1] ++ y.writeEvents 0x102 [0x21]) y.tries := by
  rw [← linkConfig_of_ses hv, ← hv]
  refine ((writeLinkConfig_ends hx).bind ((phyOp_ends _ _).bind ((memWrite_ends _ _ hy).bind
    (.of_apply fun _ => rfl)))).cast ?_ ?_ rfl
  · simp [Held.append, Attempts.answers, Held.empty, Nat.add_comm]
  · rw [List.append_assoc, List.append_nil]
    rfl

/-- `PhySetup` with all its answers at hand is its start, then its two writes (R160 to R164). -/
theorem exec_phySetup_answered {p : PhySample} {x y : Attempts} (hs : s.held = Held.empty)
    (hx : x.answered = true) (hy : y.answered = true)
    (he : s.env = e.before (Held.append ⟨[], (phySetupBlock s p).length, [p], 0, [false]⟩
      ⟨x.responses ++ y.responses, 1, [], x.waits + y.waits, []⟩)) :
    exec .stPhySetup s = .next (goTo .clockRecovery ((setPhase .phySetup s).afterAux e
      (phySetupStart s p ++ (x.writeEvents 0x100 s.linkConfig ++ [.phy .setPattern 1] ++
        y.writeEvents 0x102 [0x21])) y)) :=
  (runAction_phase _ _ _).trans
    (Ends.runAction_writes (s := setPhase .phySetup (goTo .phySetup s)) (f := goTo .clockRecovery)
      (phySetup_ends (u := setPhase .phySetup (atStart .phySetup s)) p
        fun _ hv => phySetupLink_ends hv hx hy)
      (fun _ _ => rfl) hs he)

/-! ### A poll that reads 1 -/

/-- A poll point at which the sink is unplugged (R268). -/
theorem pollPoint_raises :
    Ends pollPoint s e (raisesIn .linkUnplugged) ⟨[], 0, [], 0, [true]⟩ [.poll true] s.auxTry := by
  intro hs henv
  rw [pollPoint, act_bind, pollUnplug_ends true hs henv]
  rfl

/-- When the poll reads 1, an action that begins by writing `phase` and polling runs nothing of its `rest`
(R268, R271). -/
theorem runState_unplugged (x : Fsm) (p : Phase) (rest : Act Unit) (hs : s.held = Held.empty)
    (he : s.env = e.before ⟨[], 0, [], 0, [true]⟩) :
    runState x (modifyState (setPhase p) >>= fun _ => pollPoint >>= fun _ => rest) s =
      .next { s.afterPorts e [.poll true] with st := .linkUnplugged, ses.phase := p } :=
  (runAction_phase _ _ _).trans
    (Ends.runAction_raises (s := setPhase p (goTo x s)) pollPoint_raises.bind_raises hs he)

/-! ### The obligations -/

/-- Settles O19: the answers and the events of the start and of the two writes, one after the other. -/
theorem phySetupProgramsLink : Obligations.PhySetupProgramsLink := by
  intro s e p x y hs hx hy block he
  rw [exec_phySetup_answered (e := e) (p := p) hs hx hy (by simpa [Held.append, Nat.add_comm] using he)]
  simp only [phySetupStart, List.append_assoc]
  rfl

/-- Settles O34: each of the three actions writes its phase and polls first. -/
theorem unplugAbandons : Obligations.UnplugAbandons := by
  intro s e hs he u
  exact ⟨runState_unplugged .phySetup .phySetup _ hs he, runState_unplugged .clockRecovery .cr _ hs he,
    runState_unplugged .equalization .eq _ hs he⟩

end Sys2Proof.Machine
end

section
/-! PROOF. A round of `ClockRecovery` with its transactions answered (R170 to R176): O20, O21. The lines after
its status read are named, so that the round up to there and each of its ends are said once. -/

namespace Sys2Proof.Machine

open Sys2Proof

/-! ### A round that ends with its status read -/

/-- An action that runs as another one does from here ends as it does. -/
theorem Ends.congr {α : Type} {a a' : Act α} {s : State} {e : Env} {d : Held} {evs : List Event}
    {c : BitVec 3} {out : Run → EStateM.Result Stop Run α} (h : Ends a' s e out d evs c)
    (haa' : a ⟨s, Held.empty⟩ = a' ⟨s, Held.empty⟩) : Ends a s e out d evs c :=
  fun hs he => haa'.trans (h hs he)

/-- A round whose lines after the status read of `n` bytes make no transaction (R170, R197). -/
theorem round_endsAtStatus {u : State} {e : Env} {w b : Attempts} {n : Nat} {f : List Byte → Act Unit}
    {out : Run → EStateM.Result Stop Run Unit} (hw : w.answered = true) (hb : b.answered = true)
    (h : ∀ v : State, v.ses = u.ses → v.lanes = u.lanes →
      Ends (f (b.bytes n)) v e out Held.empty [] v.auxTry) :
    Ends (do
      pollPoint
      programLanes Config.hw
      waitReadInterval Config.hw
      let b ← memRead Config.hw 0x202 n
      f b) u e out ⟨w.responses ++ b.responses, 1, [], w.waits + 1 + b.waits, [false]⟩
      (roundEvents u n w b) b.tries := by
  refine Ends.cast (roundStart_ends hw fun v hses hlanes _ =>
    (waitReadInterval_ends hses).bind ((memRead_ends 0x202 n hb).bind (h _ hses hlanes))) ?_ ?_ rfl
  · simp [Held.append, Attempts.answers, Held.empty]
    omega
  · simp [roundEvents]

/-! ### The lines after the status read -/

/-- The lines of `ClockRecovery` after its status read (R173 to R176). -/
def crAfterStatus (b : List Byte) : Act Unit := do
  let s ← getState
  if allSet (parseLaneStatus2 b).cr s.ses.curLanes.toNat then
    modifyState (goTo .equalizationSetup)
  else if allMaxSwing Config.hw s.lanes s.ses.curLanes.toNat then
    modifyState (goTo .reduceLinkRate)
  else do
    let a ← memRead Config.hw 0x206 2
    modifyState (crAfterAdjust Config.hw (parseAdjust a))

/-- `ClockRecovery` writes `phase` and makes a round that goes on with `crAfterStatus` (R170). -/
theorem exec_clockRecovery_eq (s : State) :
    exec .stClockRecovery s = runAction (do
      pollPoint
      programLanes Config.hw
      waitReadInterval Config.hw
      let b ← memRead Config.hw 0x202 2
      crAfterStatus b) (setPhase .cr (goTo .clockRecovery s)) :=
  runAction_phase _ _ _

section AfterStatus

variable {r : Run} {bytes : List Byte}

/-- CR-done on every active lane (R173). -/
theorem crAfterStatus_done (hcr : allSet (parseLaneStatus2 bytes).cr r.s.ses.curLanes.toNat = true) :
    crAfterStatus bytes r = modifyState (goTo .equalizationSetup) r := by
  simp [crAfterStatus, act_bind, hcr]

/-- Every active lane at max swing (R174). -/
theorem crAfterStatus_maxSwing (hcr : allSet (parseLaneStatus2 bytes).cr r.s.ses.curLanes.toNat = false)
    (hmax : allMaxSwing Config.hw r.s.lanes r.s.ses.curLanes.toNat = true) :
    crAfterStatus bytes r = modifyState (goTo .reduceLinkRate) r := by
  simp [crAfterStatus, act_bind, hcr, hmax]

/-- Neither: the adjust request is read (R175). -/
theorem crAfterStatus_adjusts (hcr : allSet (parseLaneStatus2 bytes).cr r.s.ses.curLanes.toNat = false)
    (hmax : allMaxSwing Config.hw r.s.lanes r.s.ses.curLanes.toNat = false) :
    crAfterStatus bytes r = (memRead Config.hw 0x206 2 >>= fun a =>
      modifyState (crAfterAdjust Config.hw (parseAdjust a))) r := by
  simp [crAfterStatus, act_bind, hcr, hmax]

end AfterStatus

/-! ### The end of a round that reads the adjust request -/

/-- The fifth stall in a row leaves the loop; every other request is adopted and counted (R175, R176). -/
theorem crAfterAdjust_eq (q : AdjustReq) (u : State) :
    let same := sameAsRequested q u.lanes u.ses.curLanes.toNat
    crAfterAdjust Config.hw q u =
      if same = true ∧ u.ses.crStallCnt = 4 then goTo .reduceLinkRate u
      else { adopt Config.hw q u with
        ses.crStallCnt := if same then u.ses.crStallCnt + 1 else 0
        ses.totalRetryCnt := u.ses.totalRetryCnt + 1
        st := if 10 ≤ (u.ses.totalRetryCnt + 1).toNat then .reduceLinkRate else .clockRecovery } := by
  intro same
  have hstall : u.ses.crStallCnt.toNat = 4 ↔ u.ses.crStallCnt = 4 := BitVec.toNat_inj (y := 4)
  unfold crAfterAdjust
  rw [hw_crStallMax]
  by_cases hsame : same = true
  · by_cases h4 : u.ses.crStallCnt = 4
    · rw [if_pos hsame, if_pos (hstall.mpr h4), if_pos ⟨hsame, h4⟩]
    · rw [if_pos hsame, if_neg (mt hstall.mp h4), if_neg fun h => h4 h.2, if_pos hsame]
      rfl
  · rw [if_neg hsame, if_neg fun h => hsame h.1, if_neg hsame]
    rfl

theorem crAfterAdjust_ignoresHeld (q : AdjustReq) : IgnoresHeld (crAfterAdjust Config.hw q) := by
  intro u d
  rw [crAfterAdjust_eq, crAfterAdjust_eq]
  split <;> rfl

/-! ### The action -/

section ClockRecovery

variable {s : State} {e : Env} {w b a : Attempts}

/-- A round that goes to the state `x` once the status is read writes `phase` and `st` only (R173, R174). -/
theorem exec_clockRecovery_leaves {x : Fsm} (hs : s.held = Held.empty) (hw : w.answered = true)
    (hb : b.answered = true)
    (he : s.env = e.before ⟨w.responses ++ b.responses, 1, [], w.waits + 1 + b.waits, [false]⟩)
    (h : ∀ r : Run, r.s.ses.curLanes = s.ses.curLanes → r.s.lanes = s.lanes →
      crAfterStatus (b.bytes 2) r = modifyState (goTo x) r) :
    exec .stClockRecovery s =
      .next (goTo x ((setPhase .cr s).afterAux e (roundEvents s 2 w b) b)) := by
  rw [exec_clockRecovery_eq]
  refine Ends.runAction_writes (s := setPhase .cr (goTo .clockRecovery s)) (e := e) (f := goTo x)
    (round_endsAtStatus hw hb fun v hses hlanes => ?_) (fun _ _ => rfl) hs he
  have hn : v.ses.curLanes = s.ses.curLanes := by rw [hses]; rfl
  exact Ends.congr (.of_apply fun _ => rfl) (h ⟨v, Held.empty⟩ hn hlanes)

/-- The answers of a round whose adjust read is answered. -/
theorem adjustRead_answers (w b a : Attempts) :
    Held.append ⟨w.responses ++ b.responses, 1, [], w.waits + 1 + b.waits, [false]⟩ a.answers =
      ⟨w.responses ++ b.responses ++ a.responses, 1, [], w.waits + 1 + b.waits + a.waits, [false]⟩ := by
  simp [Held.append, Attempts.answers, Nat.add_comm a.waits]

/-- A round that reads the adjust request ends with it (R175, R176). -/
theorem exec_clockRecovery_adjusts (hs : s.held = Held.empty) (hw : w.answered = true)
    (hb : b.answered = true) (ha : a.answered = true)
    (he : s.env = e.before ⟨w.responses ++ b.responses ++ a.responses, 1, [],
      w.waits + 1 + b.waits + a.waits, [false]⟩)
    (hcr : allSet (parseLaneStatus2 (b.bytes 2)).cr s.ses.curLanes.toNat = false)
    (hmax : allMaxSwing Config.hw s.lanes s.ses.curLanes.toNat = false) :
    exec .stClockRecovery s = .next (crAfterAdjust Config.hw (parseAdjust (a.bytes 2))
      { (setPhase .cr s).afterAux e (roundEvents s 2 w b ++ a.readEvents 0x206 2) a with
        st := .clockRecovery }) := by
  rw [← adjustRead_answers] at he
  rw [exec_clockRecovery_eq]
  refine Ends.runAction_writes (s := setPhase .cr (goTo .clockRecovery s)) (e := e)
    (f := crAfterAdjust Config.hw (parseAdjust (a.bytes 2))) (c := a.tries)
    (round_ends hw hb fun v hses hlanes => ?_) (crAfterAdjust_ignoresHeld _) hs he
  have hn : v.ses.curLanes = s.ses.curLanes := by rw [hses]; rfl
  have hl : v.lanes = s.lanes := hlanes
  have hread : Ends (memRead Config.hw 0x206 2 >>= fun a =>
      modifyState (crAfterAdjust Config.hw (parseAdjust a))) v e
      (writesIn (crAfterAdjust Config.hw (parseAdjust (a.bytes 2)))) a.answers (a.readEvents 0x206 2)
      a.tries :=
    ((memRead_ends 0x206 2 ha).bind (.of_apply fun _ => rfl)).cast (Held.append_empty _)
      (List.append_nil _) rfl
  exact hread.congr
    (crAfterStatus_adjusts (r := ⟨v, Held.empty⟩) (hn ▸ hcr) (by rw [hn, hl]; exact hmax))

end ClockRecovery

/-! ### The obligations -/

/-- Settles O20: each of the two tests, when it is met, decides what the lines after the status read do. -/
theorem clockRecoveryLeaves : Obligations.ClockRecoveryLeaves := by
  intro s e w b hs hw hb he done u
  refine ⟨fun hdone => ?_, fun hdone hmax => ?_⟩
  · exact exec_clockRecovery_leaves hs hw hb he fun r hn _ => crAfterStatus_done (hn ▸ hdone)
  · exact exec_clockRecovery_leaves hs hw hb he fun r hn hl =>
      crAfterStatus_maxSwing (hn ▸ hdone) (by rw [hn, hl]; exact hmax)

/-- Settles O21: the end of the round, in the two cases of `crAfterAdjust_eq`. -/
theorem clockRecoveryAdjusts : Obligations.ClockRecoveryAdjusts := by
  intro s e w b a hs hw hb ha he hcr hmax q same u
  rw [exec_clockRecovery_adjusts hs hw hb ha he hcr hmax, crAfterAdjust_eq]
  rfl

end Sys2Proof.Machine
end

section
/-! PROOF. The rank that bounds a command (R177, R186, R203): O59. Every way in which an action ends
(`ActionEnd`) lowers it. -/

namespace Sys2Proof.Machine

open Sys2Proof

/-! ### The rank in each state -/

/-- The rank in the state `x`, of the session registers. -/
def rankIn (x : Fsm) (c : Session) : Nat :=
  match x with
  | .idle => 0
  | .linkUnplugged | .healthCheck | .failed => 1
  | .success => 40 * c.curRate.toNat + 3
  | .reduceLinkRate => 40 * c.curRate.toNat + 2
  | .equalization => 40 * c.curRate.toNat + 4 + (5 - c.eqRetryCnt.toNat)
  | .equalizationSetup => 40 * c.curRate.toNat + 12
  | .clockRecovery => 40 * c.curRate.toNat + 12 + (10 - c.totalRetryCnt.toNat)
  | .phySetup => 40 * c.curRate.toNat + 30
  | .capNeg => 160

theorem rank_eq_rankIn (s : State) : s.rank Config.hw = rankIn s.st s.ses := by
  unfold State.rank rankIn
  cases s.st <;> rfl

/-- `phase` is not in the rank. -/
theorem rankIn_phase (x : Fsm) (c : Session) (p : Phase) : rankIn x { c with phase := p } = rankIn x c := by
  cases x <;> rfl

/-! ### Each end of an action -/

section Exits

variable {x y : Fsm} {f : FailCode} {cmd : CmdLatch} {c : Session} {l : Lanes Lane}

/-- Going to another state and writing nothing else lowers the rank: from `ClockRecovery` because its retries
are below 10 (R176, R177). -/
theorem rankIn_plainExit (hs : c.fits Config.hw x f cmd l = true) (hy : y ∈ plainExits x) :
    rankIn y c < rankIn x c := by
  cases x with
  | phySetup =>
    simp only [plainExits, List.mem_cons, List.not_mem_nil, or_false] at hy
    rcases hy with rfl | rfl <;> simp only [rankIn] <;> omega
  | clockRecovery =>
    obtain ⟨-, -, hlt, -⟩ := (fits_clockRecovery_iff _ _ _ _).mp hs
    simp only [plainExits, List.mem_cons, List.not_mem_nil, or_false] at hy
    rcases hy with rfl | rfl | rfl <;> simp only [rankIn] <;> omega
  | equalizationSetup =>
    obtain rfl : y = .equalization := by simpa [plainExits] using hy
    simp only [rankIn]
    omega
  | equalization =>
    simp only [plainExits, List.mem_cons, List.not_mem_nil, or_false] at hy
    rcases hy with rfl | rfl | rfl <;> simp only [rankIn] <;> omega
  | _ => simp [plainExits] at hy

/-- Entering `Failed` lowers the rank: no state that can enter it is one step from the end (R262 to R264). -/
theorem rankIn_failed {g : FailCode} (hg : g ∈ failCodesFrom x) (c' : Session) :
    rankIn .failed c' < rankIn x c := by
  cases x <;> simp [failCodesFrom] at hg <;> simp only [rankIn] <;> omega

/-- Completing the command lowers the rank to 0 (R136). -/
theorem rankIn_idle {code : ResCode} (hc : code ∈ doneCodes f x) (c' : Session) :
    rankIn .idle c' < rankIn x c := by
  cases x <;> simp [doneCodes] at hc <;> simp [rankIn]

end Exits

/-- The end of a round of `ClockRecovery` with the adjust request lowers the rank: one more retry is counted,
or the loop is left (R176, R177). -/
theorem AdjustEnd.rankIn_lt {q : AdjustReq} {u v : State} (h : AdjustEnd q u v)
    (hlt : u.ses.totalRetryCnt.toNat < 10) : rankIn v.st v.ses < rankIn .clockRecovery u.ses := by
  cases h with
  | stalls => simp only [rankIn, goTo_st, goTo_ses]; omega
  | adopts stall _ =>
    have hcount : (u.ses.totalRetryCnt + 1).toNat = u.ses.totalRetryCnt.toNat + 1 := by
      rw [BitVec.toNat_add]; simp; omega
    dsimp only
    split <;> simp only [rankIn, adopt_ses] <;> omega

/-- Every end of an action lowers the rank. -/
theorem ActionEnd.rankIn_lt {u v : State} {x : Fsm} (h : ActionEnd u x v)
    (hs : u.ses.fits Config.hw x u.failCode u.cmd u.lanes = true) :
    rankIn v.st v.ses < rankIn x u.ses := by
  cases h with
  | goes hy => exact rankIn_plainExit hs hy
  | fails hc => exact rankIn_failed hc _
  | mismatches c =>
    exact rankIn_failed (x := .capNeg) (g := .capabilityMismatch) (by simp [failCodesFrom]) _
  | starts b _ =>
    have hrate := (startRate u.cmd.rate (parseCaps Config.hw b).maxRate).isLt
    simp only [rankIn, goTo_st, goTo_ses, latchStart_ses, latchCaps_cmd]
    omega
  | adjusts h =>
    obtain ⟨-, -, hlt, -⟩ := (fits_clockRecovery_iff _ _ _ _).mp hs
    exact h.rankIn_lt hlt
  | stepsDown hne =>
    have hdown : (u.ses.curRate - 1).toNat + 1 = u.ses.curRate.toNat := by bv_omega
    simp only [rankIn, stepDown_st, stepDown_ses]
    omega
  | retries q hlt =>
    have hcount : (u.ses.eqRetryCnt + 1).toNat = u.ses.eqRetryCnt.toNat + 1 := by
      rw [BitVec.toNat_add]; simp; omega
    simp only [rankIn, eqRetry_st, eqRetry_ses]
    omega
  | completes hc => exact rankIn_idle hc _

/-! ### The obligation -/

/-- Settles O59: a step of a busy block waits, or its action ends after nothing but input and output, which is
not in the rank. -/
theorem rankDecreases : Obligations.RankDecreases := by
  intro s t hinv hr hs h
  obtain ⟨hregs, -⟩ := s.inv_iff.mp hinv
  cases step_cases h with
  | resets hr' _ => simp [hr] at hr'
  | accepts w _ hs' _ => exact absurd hs' hs
  | idles _ hs' _ => exact absurd hs' hs
  | acts _ _ hact =>
    rcases hact with ⟨-, hun, -⟩ | ⟨u, v, hio, -, hk, hend, rfl⟩
    · exact .inl hun.waiting
    · have hst : u.st = s.st := hio.st
      have hfits := (hregs.actionStart.io hio hk).ses
      rw [hst] at hfits
      refine .inr ?_
      calc (endAction v).rank Config.hw = rankIn v.st v.ses := rank_eq_rankIn _
        _ < rankIn s.st u.ses := hend.rankIn_lt hfits
        _ = rankIn s.st s.ses := by rw [hio.ses]; exact rankIn_phase _ _ _
        _ = s.rank Config.hw := (rank_eq_rankIn s).symm

end Sys2Proof.Machine
end

section
/-! PROOF. The ladder (R185 to R188, R191): O22 and O23. `ReduceLinkRate` makes no transaction, so
`reduceLinkRate_step` says all it does but for the held answers, of which there are none. -/

namespace Sys2Proof.Machine

open Sys2Proof

/-- With no answer held, the end of an action changes nothing. -/
theorem endAction_of_held_empty {u : State} (hu : u.held = Held.empty) : endAction u = u := by
  rw [endAction, ← hu]

/-- `ReduceLinkRate` with no answer held: the end of the ladder, or one step down (R185, R188). -/
theorem exec_reduceLinkRate {s : State} (hs : s.held = Held.empty) :
    exec .stReduceLinkRate s = .next (if s.ses.curRate = 0
      then enterFailed .trainingExhausted (atStart .reduceLinkRate s)
      else stepDown (s.ses.curRate - 1) (atStart .reduceLinkRate s)) := by
  rw [reduceLinkRate_step, endAction_of_held_empty]
  split
  · exact hs
  · exact hs

/-- Settles O22: above the lowest rate the action is `stepDown`, which resets the lane file and the three
counters (R186, R187). -/
theorem ladderStepsDown : Obligations.LadderStepsDown := by
  intro s hs hrate
  rw [exec_reduceLinkRate hs, if_neg hrate]
  rfl

/-- Settles O23: at the lowest rate the action enters `Failed`, which leaves the session as it was (R188,
R271). -/
theorem ladderBottomExhausts : Obligations.LadderBottomExhausts := by
  intro s hs hrate
  rw [exec_reduceLinkRate hs, if_pos hrate]
  rfl

end Sys2Proof.Machine
end

section
/-! PROOF. A command ends (R203, R299, R303): O60. Each step of a busy block that does not wait lowers the rank
(O59) and keeps what the next step needs (O50), so that a recursion on the rank ends in a state that rests. -/

namespace Sys2Proof.Machine

open Sys2Proof

/-! ### A step of a busy block -/

/-- A busy block has a next state (R299). -/
theorem exists_step_busy {s : State} (hr : s.env.rstN = true) (hs : s.st ≠ .idle) : ∃ t, step s = .next t := by
  obtain ⟨t, ht, -⟩ := exec_stateInstr s hs
  exact ⟨t, (step_of_fetch hr (fetch_state (.inl hs))).trans ht⟩

/-- The step of a busy block leaves the reset input as it is (R290). -/
theorem step_busy_rstN {s t : State} (hr : s.env.rstN = true) (hs : s.st ≠ .idle) (h : step s = .next t) :
    t.env.rstN = true := by
  have hstart : (actionStart s).env.rstN = true := by simp [actionStart, hs, hr]
  cases step_cases h with
  | resets hr' _ => simp [hr] at hr'
  | accepts w _ hs' _ => exact absurd hs' hs
  | idles _ hs' _ => exact absurd hs' hs
  | acts _ _ hact =>
    rcases hact with ⟨hio, -, -⟩ | ⟨u, v, hio, -, -, hend, rfl⟩
    · exact hio.rstN.trans hstart
    · have henv : (endAction v).env = u.env := hend.env
      exact henv ▸ hio.rstN.trans hstart

/-- A run of one step more. -/
theorem run_succ {M : Host.Core} {s t : M.State} (h : M.step s = .next t) (k : Nat) :
    M.run (k + 1) s = M.run k t := by
  rw [Host.Core.run, h]

/-! ### The rank -/

/-- The rank is highest in `CapNeg` (R303). -/
theorem rank_le (s : State) : s.rank Config.hw ≤ 160 := by
  have hrate := s.ses.curRate.isLt
  rw [rank_eq_rankIn]
  cases s.st <;> simp only [rankIn] <;> omega

/-- A busy block has a step to go. -/
theorem rank_pos {s : State} (hs : s.st ≠ .idle) : 0 < s.rank Config.hw := by
  rw [rank_eq_rankIn]
  cases hx : s.st with
  | idle => exact absurd hx hs
  | _ => simp [rankIn]

/-! ### The end of a command -/

/-- Within as many steps as its rank the block is in `Idle` or waits for an answer. -/
def RestsWithinRank (s : State) : Prop :=
  ∃ k t, k ≤ s.rank Config.hw ∧ core.run k s = .next t ∧ (t.st = .idle ∨ t.waiting = true)

/-- In `Idle` no step is needed; a busy block makes one, after which it waits or its rank is lower. -/
theorem restsWithinRank (s : State) (hinv : s.inv = true) (hr : s.env.rstN = true) : RestsWithinRank s := by
  by_cases hs : s.st = .idle
  · exact ⟨0, s, Nat.zero_le _, rfl, .inl hs⟩
  · obtain ⟨t, hstep⟩ := exists_step_busy hr hs
    rcases rankDecreases s t hinv hr hs hstep with hwait | hlt
    · exact ⟨1, t, rank_pos hs, run_succ (M := core) hstep 0, .inr hwait⟩
    · obtain ⟨k, u, hk, hrun, hrest⟩ :=
        restsWithinRank t (stepKeepsInvariant s t hinv hstep) (step_busy_rstN hr hs hstep)
      exact ⟨k + 1, u, by omega, (run_succ (M := core) hstep k).trans hrun, hrest⟩
termination_by s.rank Config.hw

/-- Settles O60, by recursion on the rank. -/
theorem commandEnds : Obligations.CommandEnds :=
  fun s hinv hr => ⟨rank_le s, restsWithinRank s hinv hr⟩

end Sys2Proof.Machine
end

section
/-! PROOF. `EqualizationSetup` and `Success` with their write answered (R195, R196, R200): O24, O27. Each selects a
pattern on the PHY and then on the sink, and ends with a write of registers. -/

namespace Sys2Proof.Machine

open Sys2Proof

variable {s : State} {e : Env} {w : Attempts}

/-- The events of selecting a pattern: the PHY operation first, then the write of its byte (R98, R108). -/
def patternEvents (p : Pattern) (w : Attempts) : List Event :=
  .phy .setPattern (p.code.setWidth 16) :: w.writeEvents 0x102 [tpsetByte Config.hw p]

/-- The answers of selecting a pattern: one acknowledgement and those of the write. -/
theorem pattern_answers (w : Attempts) :
    Held.append ⟨[], 1, [], 0, []⟩ w.answers = ⟨w.responses, 1, [], w.waits, []⟩ := by
  simp [Held.append, Attempts.answers]

/-- Selecting a pattern, its write answered, and then writing registers. -/
theorem selectPattern_ends (p : Pattern) (f : State → State) (hw : w.answered = true) :
    Ends (do
      phySetPatternOp p
      writePatternByte Config.hw p
      modifyState f) s e (writesIn f) ⟨w.responses, 1, [], w.waits, []⟩ (patternEvents p w) w.tries :=
  ((phyOp_ends _ _).bind ((memWrite_ends _ _ hw).bind (.of_apply fun _ => rfl))).cast
    ((congrArg _ (Held.append_empty _)).trans (pattern_answers w))
    (congrArg _ (List.append_nil _)) rfl

/-- `EqualizationSetup` with its write answered (R195). -/
theorem exec_equalizationSetup_answered (hs : s.held = Held.empty) (hw : w.answered = true)
    (he : s.env = e.before ⟨w.responses, 1, [], w.waits, []⟩) :
    exec .stEqualizationSetup s = .next (goTo .equalization ((setPhase .eqSetup s).afterAux e
      (patternEvents (selectEqPattern Config.hw s.ses.capTps3 s.ses.capTps4) w) w)) :=
  (runAction_phase _ _ _).trans
    (Ends.runAction_writes (s := setPhase .eqSetup (goTo .equalizationSetup s)) (f := goTo .equalization)
      (Ends.get (selectPattern_ends _ _ hw)) (fun _ _ => rfl) hs he)

/-- `Success` with its write answered (R200). -/
theorem exec_success_answered (hs : s.held = Held.empty) (hw : w.answered = true)
    (he : s.env = e.before ⟨w.responses, 1, [], w.waits, []⟩) :
    exec .stSuccess s = .next (doneCmd .ok (s.afterAux e (patternEvents .normal w) w)) :=
  Ends.runAction_writes (s := goTo .success s) (f := doneCmd .ok) (selectPattern_ends _ _ hw)
    (fun _ _ => rfl) hs he

/-- The events of the richest pattern that the sink advertises (R196). -/
theorem patternEvents_selectEqPattern (tps3 tps4 : Bool) (w : Attempts) :
    patternEvents (selectEqPattern Config.hw tps3 tps4) w =
      if tps4 = true then .phy .setPattern 4 :: w.writeEvents 0x102 [0x07]
      else if tps3 = true then .phy .setPattern 3 :: w.writeEvents 0x102 [0x23]
      else .phy .setPattern 2 :: w.writeEvents 0x102 [0x22] := by
  cases tps4 with
  | true => rfl
  | false => cases tps3 <;> rfl

/-- Settles O24: the events of the pattern that the capability registers select. -/
theorem eqSetupSelectsRichest : Obligations.EqSetupSelectsRichest := by
  intro s e w hs hw he
  rw [exec_equalizationSetup_answered hs hw he, patternEvents_selectEqPattern]
  rfl

/-- Settles O27: the Normal pattern, then `Done`. -/
theorem successCompletes : Obligations.SuccessCompletes := by
  intro s e w hs hw he
  rw [exec_success_answered hs hw he]
  rfl

end Sys2Proof.Machine
end

section
/-! PROOF. A round of `Equalization` with its transactions answered (R197 to R202): O25, O26. As for
`ClockRecovery`, the lines after the status read are named, and each way through them is said once. -/

namespace Sys2Proof.Machine

open Sys2Proof

/-! ### The lines after the status read -/

/-- The lines of `Equalization` after its status read (R198 to R202). -/
def eqAfterStatus (b : List Byte) : Act Unit := do
  let t := parseStatus3 Config.hw b
  let s ← getState
  if !allSet t.lanes.cr s.ses.curLanes.toNat then
    modifyState (goTo .reduceLinkRate)
  else if eqDone t s.ses.curLanes.toNat then
    modifyState (goTo .success)
  else if Config.hw.eqRetryMax ≤ s.ses.eqRetryCnt.toNat then
    raise .trainingExhausted
  else do
    let a ← memRead Config.hw 0x206 2
    modifyState (eqRetry Config.hw (parseAdjust a))

/-- `Equalization` writes `phase` and makes a round that goes on with `eqAfterStatus` (R197). -/
theorem exec_equalization_eq (s : State) :
    exec .stEqualization s = runAction (do
      pollPoint
      programLanes Config.hw
      waitReadInterval Config.hw
      let b ← memRead Config.hw 0x202 3
      eqAfterStatus b) (setPhase .eq (goTo .equalization s)) :=
  runAction_phase _ _ _

/-- The success test of R199. -/
theorem eqDone_iff (t : Status3) (n : Nat) : eqDone t n = true ↔
    allSet t.lanes.eq n = true ∧ allSet t.lanes.sl n = true ∧ t.align = true := by
  simp [eqDone, and_assoc]

section AfterStatus

variable {r : Run} {bytes : List Byte}

/-- CR-done is lost on an active lane (R198). -/
theorem eqAfterStatus_lost
    (hcr : allSet (parseStatus3 Config.hw bytes).lanes.cr r.s.ses.curLanes.toNat = false) :
    eqAfterStatus bytes r = modifyState (goTo .reduceLinkRate) r := by
  simp [eqAfterStatus, act_bind, hcr]

/-- Every active lane is equalized and locked, and the lanes are aligned (R199). -/
theorem eqAfterStatus_done
    (hcr : allSet (parseStatus3 Config.hw bytes).lanes.cr r.s.ses.curLanes.toNat = true)
    (hdone : eqDone (parseStatus3 Config.hw bytes) r.s.ses.curLanes.toNat = true) :
    eqAfterStatus bytes r = modifyState (goTo .success) r := by
  simp [eqAfterStatus, act_bind, hcr, hdone]

/-- The retries are used up (R201). -/
theorem eqAfterStatus_exhausted
    (hcr : allSet (parseStatus3 Config.hw bytes).lanes.cr r.s.ses.curLanes.toNat = true)
    (hdone : ¬ eqDone (parseStatus3 Config.hw bytes) r.s.ses.curLanes.toNat = true)
    (hcnt : 5 ≤ r.s.ses.eqRetryCnt.toNat) :
    eqAfterStatus bytes r = raisesIn .trainingExhausted r := by
  simp [eqAfterStatus, act_bind, hcr, hdone, hcnt]

/-- A retry is left: the adjust request is read and adopted (R202). -/
theorem eqAfterStatus_retries
    (hcr : allSet (parseStatus3 Config.hw bytes).lanes.cr r.s.ses.curLanes.toNat = true)
    (hdone : ¬ eqDone (parseStatus3 Config.hw bytes) r.s.ses.curLanes.toNat = true)
    (hcnt : r.s.ses.eqRetryCnt.toNat < 5) :
    eqAfterStatus bytes r = (memRead Config.hw 0x206 2 >>= fun a =>
      modifyState (eqRetry Config.hw (parseAdjust a))) r := by
  simp [eqAfterStatus, act_bind, hcr, hdone, Nat.not_le.mpr hcnt]

end AfterStatus

/-! ### The action -/

section Equalization

variable {s : State} {e : Env} {w b a : Attempts}

/-- A round that makes no transaction after its status read ends as its last lines do (R197). -/
theorem equalization_endsAtStatus {out : Run → EStateM.Result Stop Run Unit} (hw : w.answered = true)
    (hb : b.answered = true) (h : ∀ r : Run, r.s.ses.curLanes = s.ses.curLanes →
      r.s.ses.eqRetryCnt = s.ses.eqRetryCnt → eqAfterStatus (b.bytes 3) r = out r) :
    Ends (do
      pollPoint
      programLanes Config.hw
      waitReadInterval Config.hw
      let b ← memRead Config.hw 0x202 3
      eqAfterStatus b) (dropRequests (setPhase .eq (goTo .equalization s))) e out
      ⟨w.responses ++ b.responses, 1, [], w.waits + 1 + b.waits, [false]⟩ (roundEvents s 3 w b) b.tries := by
  refine round_endsAtStatus (u := dropRequests (setPhase .eq (goTo .equalization s))) hw hb
    fun v hses _ => ?_
  have hn : v.ses.curLanes = s.ses.curLanes := by rw [hses]; rfl
  have hc : v.ses.eqRetryCnt = s.ses.eqRetryCnt := by rw [hses]; rfl
  exact Ends.congr (a' := out) (.of_apply fun _ => rfl) (h ⟨v, Held.empty⟩ hn hc)

/-- A round that goes to the state `x` once the status is read writes `phase` and `st` only (R198, R199). -/
theorem exec_equalization_leaves {x : Fsm} (hs : s.held = Held.empty) (hw : w.answered = true)
    (hb : b.answered = true)
    (he : s.env = e.before ⟨w.responses ++ b.responses, 1, [], w.waits + 1 + b.waits, [false]⟩)
    (h : ∀ r : Run, r.s.ses.curLanes = s.ses.curLanes → r.s.ses.eqRetryCnt = s.ses.eqRetryCnt →
      eqAfterStatus (b.bytes 3) r = modifyState (goTo x) r) :
    exec .stEqualization s = .next (goTo x ((setPhase .eq s).afterAux e (roundEvents s 3 w b) b)) :=
  (exec_equalization_eq s).trans
    ((equalization_endsAtStatus hw hb h).runAction_writes (fun _ _ => rfl) hs he)

/-- A round whose retries are used up raises `TrainingExhausted` (R201, R262). -/
theorem exec_equalization_exhausted (hs : s.held = Held.empty) (hw : w.answered = true)
    (hb : b.answered = true)
    (he : s.env = e.before ⟨w.responses ++ b.responses, 1, [], w.waits + 1 + b.waits, [false]⟩)
    (hcr : allSet (parseStatus3 Config.hw (b.bytes 3)).lanes.cr s.ses.curLanes.toNat = true)
    (hdone : ¬ eqDone (parseStatus3 Config.hw (b.bytes 3)) s.ses.curLanes.toNat = true)
    (hcnt : 5 ≤ s.ses.eqRetryCnt.toNat) :
    exec .stEqualization s = .next (enterFailed .trainingExhausted
      ((setPhase .eq s).afterAux e (roundEvents s 3 w b) b)) :=
  (exec_equalization_eq s).trans
    ((equalization_endsAtStatus hw hb fun _ hn hc =>
      eqAfterStatus_exhausted (hn ▸ hcr) (hn ▸ hdone) (hc ▸ hcnt)).runAction_raises hs he)

/-- The adjust read, answered, and a write of registers that depends on its bytes (R202). -/
theorem adjustRead_ends {v : State} (f : List Byte → State → State) (ha : a.answered = true) :
    Ends (memRead Config.hw 0x206 2 >>= fun c => modifyState (f c)) v e (writesIn (f (a.bytes 2))) a.answers
      (a.readEvents 0x206 2) a.tries :=
  ((memRead_ends 0x206 2 ha).bind (.of_apply fun _ => rfl)).cast (Held.append_empty _)
    (List.append_nil _) rfl

/-- A round that has a retry left reads the adjust request and ends with `eqRetry` (R202). -/
theorem exec_equalization_retries (hs : s.held = Held.empty) (hw : w.answered = true)
    (hb : b.answered = true) (ha : a.answered = true)
    (he : s.env = e.before ⟨w.responses ++ b.responses ++ a.responses, 1, [],
      w.waits + 1 + b.waits + a.waits, [false]⟩)
    (hcr : allSet (parseStatus3 Config.hw (b.bytes 3)).lanes.cr s.ses.curLanes.toNat = true)
    (hdone : ¬ eqDone (parseStatus3 Config.hw (b.bytes 3)) s.ses.curLanes.toNat = true)
    (hcnt : s.ses.eqRetryCnt.toNat < 5) :
    exec .stEqualization s = .next (eqRetry Config.hw (parseAdjust (a.bytes 2))
      ((setPhase .eq s).afterAux e (roundEvents s 3 w b ++ a.readEvents 0x206 2) a)) := by
  rw [← adjustRead_answers] at he
  rw [exec_equalization_eq]
  refine Ends.runAction_writes (s := setPhase .eq (goTo .equalization s)) (e := e)
    (f := eqRetry Config.hw (parseAdjust (a.bytes 2))) (c := a.tries)
    (round_ends hw hb fun v hses _ => ?_) (fun _ _ => rfl) hs he
  have hn : v.ses.curLanes = s.ses.curLanes := by rw [hses]; rfl
  have hc : v.ses.eqRetryCnt = s.ses.eqRetryCnt := by rw [hses]; rfl
  exact (adjustRead_ends (fun c => eqRetry Config.hw (parseAdjust c)) ha).congr
    (eqAfterStatus_retries (r := ⟨v, Held.empty⟩) (hn ▸ hcr) (hn ▸ hdone) (hc ▸ hcnt))

end Equalization

/-! ### The obligations -/

/-- Settles O25: the tests of R198, R199 and R201, in this order, decide how the round ends. -/
theorem equalizationLeaves : Obligations.EqualizationLeaves := by
  intro s e w b hs hw hb he t n locked u
  have hlocked : eqDone t n = true ↔ locked := eqDone_iff t n
  refine ⟨fun hcr => ?lost, fun hcr hl => ?done, fun hcr hl hcnt => ?exhausted⟩
  case lost =>
    exact exec_equalization_leaves hs hw hb he fun _ hn _ => eqAfterStatus_lost (hn ▸ hcr)
  case done =>
    exact exec_equalization_leaves hs hw hb he fun _ hn _ =>
      eqAfterStatus_done (hn ▸ hcr) (hn ▸ hlocked.mpr hl)
  case exhausted =>
    exact exec_equalization_exhausted hs hw hb he hcr (mt hlocked.mp hl) hcnt

/-- Settles O26: the round ends with `eqRetry`, which adopts the request without comparing it (R202). -/
theorem equalizationRetries : Obligations.EqualizationRetries := by
  intro s e w b a hs hw hb ha he t n hcr hlocked hcnt
  exact exec_equalization_retries hs hw hb ha he hcr (mt (eqDone_iff t n).mp hlocked) hcnt

end Sys2Proof.Machine
end

section
/-! PROOF. The tests of the active lanes (R223, R237, R238): O47. Each is `allActive` of a property of a lane;
the mask form of `AllSet` compares bit by bit. -/

namespace Sys2Proof.Machine

open Sys2Proof

/-! ### Masks -/

/-- Bit `j` of a list of bits as a number. -/
theorem bitsToNat_testBit (l : List Bool) (j : Nat) : (bitsToNat l).testBit j = l.getD j false := by
  induction l generalizing j with
  | nil => simp [bitsToNat]
  | cons b bs ih =>
    cases j with
    | zero => cases b <;> simp [bitsToNat, Nat.testBit_zero, Nat.add_mod]
    | succ j =>
      have hdiv : (b.toNat + 2 * bitsToNat bs) / 2 = bitsToNat bs := by
        have := b.toNat_lt
        omega
      rw [bitsToNat, Nat.testBit_succ, hdiv, ih, List.getD_cons_succ]

/-- Bit `i` of the mask is the value of lane `i` (R223). -/
theorem laneMask_getLsbD (v : Lanes Bool) (i : LaneIdx) : (laneMask v).getLsbD i.val = v.get i := by
  rw [laneMask, BitVec.getLsbD_ofNat, decide_eq_true i.isLt, Bool.true_and, bitsToNat_testBit,
    v.getD_toList]

/-- A word covers a mask exactly if it has every bit of it. -/
theorem and_mask_eq_iff {w : Nat} (x m : BitVec w) :
    x &&& m = m ↔ ∀ i : Fin w, m.getLsbD i.val = true → x.getLsbD i.val = true := by
  constructor
  · intro h i hm
    rw [← h, BitVec.getLsbD_and, Bool.and_eq_true] at hm
    exact hm.1
  · intro h
    refine BitVec.eq_of_getLsbD_eq fun j hj => ?_
    rw [BitVec.getLsbD_and]
    exact Bool.and_eq_right_iff_imp.mpr (h ⟨j, hj⟩)

/-! ### The tests -/

theorem allSet_iff (v : Lanes Bool) (n : Nat) :
    allSet v n = true ↔ ∀ i : LaneIdx, i.val < n → v.get i = true :=
  allActive_iff n v.get

/-- `AllSet` is the comparison with a mask whose bits are the active lanes (R223). -/
theorem allSet_iff_mask (v : Lanes Bool) (n : Nat) {m : BitVec Config.shape.maxLanes}
    (hm : ∀ i : LaneIdx, m.getLsbD i.val = true ↔ i.val < n) :
    allSet v n = true ↔ laneMask v &&& m = m := by
  rw [allSet_iff, and_mask_eq_iff]
  exact forall_congr' fun i => by rw [hm, laneMask_getLsbD]

theorem allMaxSwing_iff (f : Lanes Lane) (n : Nat) :
    allMaxSwing Config.hw f n = true ↔ ∀ i : LaneIdx, i.val < n → 5 ≤ (f.get i).swRep.toNat :=
  (allActive_iff n _).trans (forall₂_congr fun _ _ => decide_eq_true_iff)

theorem sameAsRequested_iff (q : AdjustReq) (f : Lanes Lane) (n : Nat) :
    sameAsRequested q f n = true ↔
      ∀ i : LaneIdx, i.val < n → q.sw.get i = (f.get i).sw ∧ q.pe.get i = (f.get i).pe := by
  simp only [sameAsRequested, allActive_iff, Bool.and_eq_true, beq_iff_eq]

/-- Settles O47: the bits of each of the three masks are the active lanes. -/
theorem allSetMask : Obligations.AllSetMask := by
  refine ⟨fun v => ⟨?one, ?two, ?four, laneMask_getLsbD v⟩, fun n _ =>
    ⟨fun v => allSet_iff v n, fun f => allMaxSwing_iff f n, fun q f => sameAsRequested_iff q f n⟩⟩
  case one => exact allSet_iff_mask v 1 (by decide)
  case two => exact allSet_iff_mask v 2 (by decide)
  case four => exact allSet_iff_mask v 4 (by decide)

end Sys2Proof.Machine
end

section
/-! PROOF. The outputs of the status parser, bit by bit, and the bits it ignores (R216 to R222, R224): O48. Every
output reads bits of single bytes, so a mask that keeps those bits changes no output. -/

namespace Sys2Proof.Machine

open Sys2Proof

/-! ### Status bytes -/

/-- A mask leaves a bit that it has. -/
theorem getLsbD_and_mask {b m : Byte} {k : Nat} (hm : m.getLsbD k = true) :
    (b &&& m).getLsbD k = b.getLsbD k := by
  rw [BitVec.getLsbD_and, hm, Bool.and_true]

/-- The byte of lane `i` in a burst of one byte for each two lanes (R217, R221). -/
theorem burstByte_lane (b0 b1 : Byte) (i : LaneIdx) :
    burstByte [b0, b1] (i.val / 2) = if i.val < 2 then b0 else b1 := by
  fin_cases i <;> rfl

/-- The byte of lane `i` in a burst whose bytes are masked. -/
theorem burstByte_lane_masked (b0 b1 m : Byte) (i : LaneIdx) :
    burstByte [b0 &&& m, b1 &&& m] (i.val / 2) = burstByte [b0, b1] (i.val / 2) &&& m := by
  fin_cases i <;> rfl

/-- A lane's status is in three bits of each half of its byte (R216, R224). -/
theorem laneStatus_masked (b : Byte) {odd : Nat} (h : odd < 2) :
    laneStatus (b &&& 0x77) odd = laneStatus b odd := by
  have hmask : ∀ k < 3, (0x77 : Byte).getLsbD (4 * odd + k) = true := by
    revert odd; decide
  rw [laneStatus, laneStatus, getLsbD_and_mask (k := 4 * odd) (hmask 0 (by decide)),
    getLsbD_and_mask (hmask 1 (by decide)), getLsbD_and_mask (hmask 2 (by decide))]

theorem parseLaneStatus2_masked (b0 b1 : Byte) :
    parseLaneStatus2 [b0 &&& 0x77, b1 &&& 0x77] = parseLaneStatus2 [b0, b1] := by
  have hlane : laneStatusAt [b0 &&& 0x77, b1 &&& 0x77] = laneStatusAt [b0, b1] := funext fun i => by
    rw [laneStatusAt, burstByte_lane_masked, laneStatus_masked _ (Nat.mod_lt _ Nat.two_pos), laneStatusAt]
  simp only [parseLaneStatus2, hlane]

/-- The status bits of lane `i` (R216, R217). -/
theorem parseLaneStatus2_get (b0 b1 : Byte) (i : LaneIdx) :
    let b := if i.val < 2 then b0 else b1
    let k := 4 * (i.val % 2)
    (parseLaneStatus2 [b0, b1]).cr.get i = b.getLsbD k ∧
      (parseLaneStatus2 [b0, b1]).eq.get i = b.getLsbD (k + 1) ∧
      (parseLaneStatus2 [b0, b1]).sl.get i = b.getLsbD (k + 2) := by
  simp only [parseLaneStatus2, Lanes.get_ofFn, laneStatusAt, burstByte_lane, laneStatus, and_self]

/-- The requested levels of lane `i` (R221). -/
theorem parseAdjust_get (b0 b1 : Byte) (i : LaneIdx) :
    let b := if i.val < 2 then b0 else b1
    let k := 4 * (i.val % 2)
    (parseAdjust [b0, b1]).sw.get i = b.extractLsb' k 2 ∧
      (parseAdjust [b0, b1]).pe.get i = b.extractLsb' (k + 2) 2 := by
  simp only [parseAdjust, Lanes.get_ofFn, burstByte_lane, and_self]

/-- The 3-byte decode (R218, R219). -/
theorem parseStatus3_eq (b0 b1 b2 : Byte) :
    parseStatus3 Config.hw [b0, b1, b2] =
      { lanes := parseLaneStatus2 [b0, b1], align := b2.getLsbD 0, upd := b2.getLsbD 7 } := rfl

/-- The 6-byte decode (R220). -/
theorem parseStatus6_eq (b0 b1 b2 b3 b4 b5 : Byte) :
    parseStatus6 Config.hw [b0, b1, b2, b3, b4, b5] =
      { status := parseStatus3 Config.hw [b2, b3, b4], sinkCountRaw := b0 } := rfl

theorem parseStatus3_masked (b0 b1 b2 : Byte) :
    parseStatus3 Config.hw [b0 &&& 0x77, b1 &&& 0x77, b2 &&& 0x81] =
      parseStatus3 Config.hw [b0, b1, b2] := by
  rw [parseStatus3_eq, parseStatus3_eq, parseLaneStatus2_masked, getLsbD_and_mask (k := 0) (by decide),
    getLsbD_and_mask (k := 7) (by decide)]

/-! ### Capabilities -/

/-- The capabilities of the four bytes that hold them (R105, R222). -/
def capsOf (rate lanes tps4 rd : Byte) : Caps where
  rateLegal := (rateIndex Config.hw rate).isSome
  maxRate := (rateIndex Config.hw rate).getD 0
  maxLanes := (lanes &&& 0x1F).setWidth 5
  lanesLegal := lanesLegal (lanes &&& 0x1F).toNat
  tps3 := lanes.getLsbD 6
  efc := lanes.getLsbD 7
  tps4 := tps4.getLsbD 7
  rdInterval := (rd &&& 0x7F).setWidth 7

theorem parseCaps_eq_capsOf (c : List Byte) :
    parseCaps Config.hw c = capsOf (c.getD 1 0) (c.getD 2 0) (c.getD 3 0) (c.getD 14 0) := rfl

/-- The capability bits that R224 lists are ignored. -/
theorem capsOf_masked (rate lanes tps4 rd : Byte) :
    capsOf rate (lanes &&& 0xDF) (tps4 &&& 0x80) (rd &&& 0x7F) = capsOf rate lanes tps4 rd := by
  have hlanes : lanes &&& 0xDF &&& 0x1F = lanes &&& 0x1F := BitVec.and_assoc ..
  have hrd : rd &&& 0x7F &&& 0x7F = rd &&& 0x7F := BitVec.and_assoc ..
  simp only [capsOf]
  rw [hlanes, hrd, getLsbD_and_mask (k := 6) (by decide), getLsbD_and_mask (b := lanes) (k := 7) (by decide),
    getLsbD_and_mask (b := tps4) (k := 7) (by decide)]

/-- The code of a rate is its code in the table, and no other byte is one (R96). -/
theorem rateIndex_eq_some_iff (b : Byte) (r : RateIdx) : rateIndex Config.hw b = some r ↔
    (b = 0x06 ∧ r = 0) ∨ (b = 0x0A ∧ r = 1) ∨ (b = 0x14 ∧ r = 2) ∨ (b = 0x1E ∧ r = 3) := by
  by_cases h : b = 0x06 ∨ b = 0x0A ∨ b = 0x14 ∨ b = 0x1E
  · rcases h with rfl | rfl | rfl | rfl <;> revert r <;> decide
  · simp only [not_or] at h
    have hnone : rateIndex Config.hw b = none := by
      simp only [rateIndex, hw_rateCode, h, if_false]
    simp only [hnone, h, false_and, or_self, reduceCtorEq]

/-- An index that is there has a given value. -/
theorem isSome_and_getD_eq_iff (o : Option RateIdx) (r : RateIdx) :
    o.isSome = true ∧ o.getD 0 = r ↔ o = some r := by
  cases o <;> simp

/-- The rate field (R222). -/
theorem capsOf_rate (rate lanes tps4 rd : Byte) (r : RateIdx) :
    (capsOf rate lanes tps4 rd).rateLegal = true ∧ (capsOf rate lanes tps4 rd).maxRate = r ↔
      (rate = 0x06 ∧ r = 0) ∨ (rate = 0x0A ∧ r = 1) ∨ (rate = 0x14 ∧ r = 2) ∨ (rate = 0x1E ∧ r = 3) :=
  (isSome_and_getD_eq_iff _ r).trans (rateIndex_eq_some_iff rate r)

/-- An unknown rate code has the index 0 (R222). -/
theorem capsOf_maxRate_of_illegal {rate lanes tps4 rd : Byte}
    (h : (capsOf rate lanes tps4 rd).rateLegal = false) : (capsOf rate lanes tps4 rd).maxRate = 0 := by
  have hnone : rateIndex Config.hw rate = none := 
    Option.isNone_iff_eq_none.mp (Option.isSome_eq_false_iff.mp h)
  simp only [capsOf, hnone, Option.getD_none]

/-- The interval field is the low seven bits of its byte (R105). -/
theorem setWidth_intervalField (b : Byte) : (b &&& 0x7F).setWidth 7 = b.extractLsb' 0 7 := by
  revert b; decide

/-! ### The obligation -/

/-- Settles O48: the outputs bit by bit, then the masks that keep exactly the bits they read. -/
theorem parserIgnoresBits : Obligations.ParserIgnoresBits := by
  refine ⟨?lanes, ?status, ?caps, ?lanesMasked, ?status3Masked, ?status6Masked, ?capsMasked⟩
  case lanes =>
    intro b0 b1 i b k v q
    obtain ⟨hcr, heq, hsl⟩ := parseLaneStatus2_get b0 b1 i
    exact ⟨hcr, heq, hsl, parseAdjust_get b0 b1 i⟩
  case status =>
    exact fun b0 b1 b2 b3 b4 b5 => ⟨parseStatus3_eq b0 b1 b2, parseStatus6_eq b0 b1 b2 b3 b4 b5⟩
  case caps =>
    intro c p n
    exact ⟨toNat_lanesField _, lanesLegal_iff n, capsOf_rate _ _ _ _, capsOf_maxRate_of_illegal,
      rfl, rfl, rfl, setWidth_intervalField _⟩
  case lanesMasked => exact fun b0 b1 => (parseLaneStatus2_masked b0 b1).symm
  case status3Masked => exact fun b0 b1 b2 => (parseStatus3_masked b0 b1 b2).symm
  case status6Masked =>
    intro b0 b1 b2 b3 b4 b5 c1 c5
    rw [parseStatus6_eq, parseStatus6_eq, parseStatus3_masked]
  case capsMasked =>
    intro c d h1 h2 h3 h14
    rw [parseCaps_eq_capsOf, parseCaps_eq_capsOf, ← capsOf_masked, h1, h2, h3, h14, capsOf_masked]

end Sys2Proof.Machine
end

section
/-! PROOF. The lane-set byte and its decoding, and what `ProgramLanes` drives (R233, R235, R236): O44. Each bit
of the byte comes from one of its four fields. -/

namespace Sys2Proof.Machine

open Sys2Proof

/-- The bits of a lane-set byte: swing, pre-emphasis flag, pre-emphasis, swing flag, lowest first (R101). -/
theorem laneSetEncode_getLsbD (f : LaneSet) (j : Nat) :
    (laneSetEncode Config.hw f).getLsbD j =
      if j < 2 then f.sw.getLsbD j else if j < 3 then f.maxPe else if j < 5 then f.pe.getLsbD (j - 3)
      else decide (j = 5) && f.maxSw := by
  simp only [laneSetEncode, hw_lanesetMaxPeBit, hw_lanesetMaxSwBit, BitVec.getLsbD_or,
    BitVec.getLsbD_shiftLeft, BitVec.getLsbD_setWidth, BitVec.getLsbD_ofBool]
  have hsw : 2 ≤ j → f.sw.getLsbD j = false := BitVec.getLsbD_of_ge _ _
  have hpe : 2 ≤ j - 3 → f.pe.getLsbD (j - 3) = false := BitVec.getLsbD_of_ge _ _
  split_ifs with h2 h3 h5
  · simp [show j < 8 by omega, show j < 3 by omega, show j < 5 by omega, h2]
  · obtain rfl : j = 2 := by omega
    simp
  · simp [show j < 8 by omega, h5, h3, h2, hsw (by omega), show j - 3 < 8 by omega, show j - 2 ≠ 0 by omega]
  · rw [hsw (by omega), hpe (by omega)]
    simp only [show j - 2 ≠ 0 by omega, show j - 5 = 0 ↔ j = 5 by omega]
    by_cases hj : j = 5 <;> simp [hj]

/-- Decoding gives the four fields of an encoded byte back (R236). -/
theorem laneSetDecode_encode (f : LaneSet) :
    laneSetDecode Config.hw (laneSetEncode Config.hw f) = f := by
  have hsw : (laneSetEncode Config.hw f).extractLsb' 0 2 = f.sw :=
    extractLsb'_eq_of_bits fun j hj => by
      rw [laneSetEncode_getLsbD, Nat.zero_add, if_pos hj]
  have hpe : (laneSetEncode Config.hw f).extractLsb' 3 2 = f.pe :=
    extractLsb'_eq_of_bits fun j hj => by
      rw [laneSetEncode_getLsbD, if_neg (by omega), if_neg (by omega), if_pos (by omega),
        Nat.add_sub_cancel_left]
  have hmaxSw : (laneSetEncode Config.hw f).getLsbD 5 = f.maxSw := laneSetEncode_getLsbD f 5
  have hmaxPe : (laneSetEncode Config.hw f).getLsbD 2 = f.maxPe := laneSetEncode_getLsbD f 2
  rw [laneSetDecode, hw_lanesetMaxSwBit, hw_lanesetMaxPeBit, hsw, hpe, hmaxSw, hmaxPe]

/-- A flag of the lane-set byte as the number it adds before its shift (R233). -/
theorem setWidth_ofBool_decide (p : Prop) [Decidable p] :
    (BitVec.ofBool (decide p)).setWidth 8 = if p then (1 : Byte) else 0 := by
  by_cases h : p <;> simp [h]

/-- `LaneSetByte` of a lane, the flags written out (R232, R233). -/
theorem setByte_eq (l : Lane) :
    l.setByte Config.hw = (l.pe.setWidth 8 <<< 3) ||| l.sw.setWidth 8 |||
      ((if 5 ≤ l.peRep.toNat then (1 : Byte) else 0) <<< 2) |||
      ((if 5 ≤ l.swRep.toNat then (1 : Byte) else 0) <<< 5) := by
  rw [← setWidth_ofBool_decide, ← setWidth_ofBool_decide]; rfl

/-- Settles O44: the byte and its bits, the decoding, then the two words of `ProgramLanes`. -/
theorem laneSetByteRoundTrip : Obligations.LaneSetByteRoundTrip := by
  refine ⟨?byte, ?decode, laneSetDecode_encode, ?decodeLane, ?argument, ?bytes⟩
  case byte => exact fun l => ⟨setByte_eq l, laneSetEncode_high _⟩
  case decode => exact fun _ => rfl
  case decodeLane => exact fun l => laneSetDecode_encode (l.fields Config.hw)
  case argument =>
    intro f i
    simpa only [lanesArg, Lanes.get_map] using voltPeArg_fields (f.map Lane.sw) (f.map Lane.pe) i
  case bytes =>
    intro f
    simp only [laneSetBytes, Lanes.toList_eq, Lanes.get_map]

end Sys2Proof.Machine
end

section
/-! PROOF. Adoption of the requested levels (R234): O45. -/

namespace Sys2Proof.Machine

open Sys2Proof

/-- The next repetition counter: one more for a kept value, up to 5, and 0 for a changed one (R234). -/
theorem nextRep_eq (r v : Level) (rep : BitVec 3) :
    nextRep Config.hw (r == v) rep = if r = v then BitVec.ofNat 3 (min (rep.toNat + 1) 5) else 0 := by
  simp only [nextRep, beq_iff_eq, hw_maxReachThreshold]

/-- Settles O45: the lane's adoption, with both of its counters written out. -/
theorem adoptRule : Obligations.AdoptRule := by
  intro q f i
  rw [get_adoptLanes, adoptLane, nextRep_eq, nextRep_eq]

end Sys2Proof.Machine
end

section
/-! PROOF. Reset, and the outcome of every instruction and step (R42, R260, R290 to R292, R299): O8, O9. -/

namespace Sys2Proof.Machine

open Sys2Proof

/-- The reset values, written out, are those that a reset leaves (R42, R290). -/
theorem blockReset_eq_allReset (s : State) : blockReset s = allReset s.env s.tick s.trace := rfl

/-- The result word of result registers that are all 0 (R92). -/
theorem reset_resultWord : ResultRegs.reset.word = 0x0000 := by decide

/-- Settles O9: a step under reset is `blockReset`. -/
theorem resetHolds : Obligations.ResetHolds :=
  ⟨fun s hr => by rw [step_reset hr, blockReset_eq_allReset], rfl,
    fun _ _ _ => ⟨rfl, rfl, rfl, reset_resultWord, rfl, rfl, rfl, rfl⟩⟩

/-- However an action ends, the step that runs it answers a next state (R260, R299). -/
theorem runAction_next (a : Act Unit) (s : State) : ∃ t, runAction a s = .next t := by
  rcases runAction_cases a s with ⟨_, _, h⟩ | ⟨_, _, _, h⟩ | ⟨_, _, h⟩ <;> exact ⟨_, h⟩

/-- Every row answers a next state: a CMD row accepts or ignores its word, a PHASE or RES row writes
registers, and every other row runs an action. -/
theorem exec_next (i : Instr) (s : State) : ∃ t, exec i s = .next t := by
  cases i with
  | train | checkHealth | illegalOp0 | illegalOp3 | illegalBit7 => exact ⟨_, exec_cmdRow_eq rfl s⟩
  | phaseNone | phaseCapNeg | phasePhySetup | phaseCr | phaseEqSetup | phaseEq | phaseHealth =>
    exact ⟨_, rfl⟩
  | resOk | resLinkUnplugged | resTrainingExhausted | resCapabilityMismatch | resAuxTransportError
  | resRetrainRequired | resBadCommand => exact ⟨_, rfl⟩
  | stIdle => exact ⟨_, idle_step s⟩
  | stLinkUnplugged => exact ⟨_, linkUnplugged_step s⟩
  | _ => exact runAction_next _ _

/-- Every state fetches an instruction: all command words and all state codes decode. -/
theorem fetch_ok (s : State) : ∃ i, fetch s = .ok i := by
  by_cases h : s.st ≠ .idle ∨ s.env.cmds = []
  · exact ⟨_, fetch_state h⟩
  · obtain ⟨hs, hw⟩ := not_or.mp h
    obtain ⟨w, ws, hw⟩ := List.exists_cons_of_ne_nil hw
    exact ⟨_, fetch_presented (not_not.mp hs) hw⟩

/-- Settles O8: a step resets the block or runs the instruction it fetches. -/
theorem nothingStops : Obligations.NothingStops := by
  refine ⟨exec_next, fun s => ?_⟩
  cases hr : s.env.rstN with
  | false => exact ⟨_, step_reset hr⟩
  | true =>
    obtain ⟨i, hi⟩ := fetch_ok s
    rw [step_of_fetch hr hi]
    exact exec_next i (afterFetch s)

end Sys2Proof.Machine
end

section
/-! PROOF. The four illegal forms of a command word (R133, R266): O12. -/

namespace Sys2Proof.Machine

open Sys2Proof

/-- A refused word, accepted in `Idle`, completes the command (R133, R266). -/
theorem exec_refused {i : Instr} {w : BitVec 8} {s : State} (hi : encode i = .cmd w) (hs : s.st = .idle)
    (h : accept w s = takeException .badCommand (latchCommand w s)) :
    exec i s = .next (refusedCommand w s) := by
  rw [exec_cmdRow_eq hi, if_pos hs, h, badCommand_latchCommand]

/-- Settles O12: the pseudocode refuses each of the four illegal forms. -/
theorem illegalCommandRefused : Obligations.IllegalCommandRefused := by
  intro s hs
  refine ⟨fun rate lanes hl => ?_, fun x => ?_, fun x => ?_, fun x => ?_⟩
  · obtain ⟨hop, hlanes⟩ := cmdWord_train_fields rate lanes
    obtain ⟨h7, -⟩ := cmdWord_train_bit7_rate rate lanes
    refine exec_refused (w := cmdWord 0 lanes rate 1) rfl hs ?_
    rw [accept_train s h7 hop hlanes, hl]
    rfl
  · exact exec_refused rfl hs (accept_illegal s (.inr (.inl (clearWord_fields x 0).2)))
  · exact exec_refused rfl hs (accept_illegal s (.inr (.inr (clearWord_fields x 3).2)))
  · exact exec_refused rfl hs (accept_illegal s (.inl (setWord_bit7 x)))

end Sys2Proof.Machine
end

section
/-! PROOF. The states that complete a `TRAIN` that failed: `Failed` and `LinkUnplugged` (R264, R265, R274): O28,
O29, O30. -/

namespace Sys2Proof.Machine

open Sys2Proof

variable {s : State} {e : Env} {d : Held} {evs : List Event} {c : BitVec 3}

/-- `Done` neither reads nor changes the held answers (R136). -/
theorem doneCmd_ignoresHeld (code : ResCode) : IgnoresHeld (doneCmd code) := fun _ _ => rfl

/-- Settles O30: the action is `Done` and makes no transaction. -/
theorem linkUnpluggedCompletes : Obligations.LinkUnpluggedCompletes := by
  intro s hs
  rw [linkUnplugged_step]
  exact congrArg Host.Outcome.next
    ((doneCmd_ignoresHeld .linkUnplugged).endAction (u := atStart .linkUnplugged s) hs s.held)

/-- The `try` of `Failed` changes nothing about an action that raises nothing (R264). -/
theorem Ends.swallow {a : Act Unit} (h : Ends a s e (.ok ()) d evs c) :
    Ends (swallowAuxFail a) s e (.ok ()) d evs c := by
  intro hs he
  rw [swallowAuxFail, h hs he]

/-- It catches an `AuxFail` (R274). -/
theorem Ends.swallow_auxFail {a : Act Unit} {addr : Addr}
    (h : Ends a s e (raisesIn (.auxFail addr)) d evs c) : Ends (swallowAuxFail a) s e (.ok ()) d evs c := by
  intro hs he
  rw [swallowAuxFail, h hs he]

/-- Once its courtesy write is over, `Failed` completes with its pending code (R264). -/
theorem exec_failed_completes (hs : s.held = Held.empty) (he : s.env = e.before d)
    (h : Ends (swallowAuxFail (writePatternByte Config.hw .normal)) (atStart .failed s) (e.before Held.empty)
      (.ok ()) d evs c) :
    exec .stFailed s = .next (doneCmd (failResult s.failCode) { s.afterPorts e evs with auxTry := c }) :=
  Ends.runAction_writes (s := goTo .failed s) (e := e) (f := fun u => doneCmd (failResult u.failCode) u)
    ((h.bind (.of_apply fun _ => rfl)).cast (Held.append_empty d) (List.append_nil evs) rfl)
    (fun _ _ => rfl) hs he

/-- Settles O28: the write is answered. -/
theorem failedCompletes : Obligations.FailedCompletes := by
  intro s e w hs hw he code
  rw [exec_failed_completes hs he (memWrite_ends _ _ hw).swallow]
  rfl

/-- Settles O29: the write raises `AuxFail`, which is caught. -/
theorem failedSwallowsAuxFail : Obligations.FailedSwallowsAuxFail := by
  intro s e x hs hx he code
  rw [← x.answers_failed hx] at he
  rw [exec_failed_completes hs he (memWrite_raises _ _ hx).swallow_auxFail]
  rfl

end Sys2Proof.Machine
end

section
/-! PROOF. The verdict of the health check (R245 to R247): O32. Each of its three tests is met exactly when one
part of the condition of `OK` fails. -/

namespace Sys2Proof.Machine

open Sys2Proof

/-- The bytes that are rate codes (R96). -/
theorem rateIndex_isSome_iff (b : Byte) : (rateIndex Config.hw b).isSome = true ↔
    b = 0x06 ∨ b = 0x0A ∨ b = 0x14 ∨ b = 0x1E := by
  simp only [Option.isSome_iff_exists, rateIndex_eq_some_iff, exists_or, exists_and_left, exists_eq, and_true]

/-- The first test: the sink's rate byte or its lane field is not a legal one. -/
theorem verdict_illegal_iff (b : Byte) (n : Nat) :
    ((rateIndex Config.hw b).isNone || !lanesLegal n) = true ↔
      ¬ ((b = 0x06 ∨ b = 0x0A ∨ b = 0x14 ∨ b = 0x1E) ∧ (n = 1 ∨ n = 2 ∨ n = 4)) := by
  rw [← rateIndex_isSome_iff, ← lanesLegal_iff, not_and_or, Bool.or_eq_true, Bool.not_eq_true',
    Bool.not_eq_true, Bool.not_eq_true, Option.isSome_eq_false_iff]

/-- The second test: the sink and the PHY differ. The lane counts are compared as numbers (R246). -/
theorem verdict_differs_iff (b n : Byte) (p : PhySample) :
    (b != p.rateCode || n != p.lanes.setWidth 8) = true ↔
      ¬ (b = p.rateCode ∧ n.toNat = p.lanes.toNat) := by
  rw [not_and_or, Bool.or_eq_true, bne_iff_ne, bne_iff_ne, ne_eq, ne_eq,
    ← BitVec.toNat_inj (x := n), BitVec.toNat_setWidth_of_le (by decide)]

/-- The third test: the status was updated and is not good (R247). -/
theorem verdict_bad_iff (upd cr eq sl align : Bool) :
    (upd && !(cr && eq && sl && align)) = true ↔
      ¬ (upd = true → cr = true ∧ eq = true ∧ sl = true ∧ align = true) := by
  rw [Classical.not_imp, Bool.and_eq_true, Bool.not_eq_true', ← Bool.not_eq_true]
  simp only [Bool.and_eq_true, and_assoc]

/-- The verdict is `OK` exactly if no test is met. -/
theorem healthVerdict_eq_ok_iff (b0 b1 s0 s1 s2 : Byte) (p : PhySample) :
    let n := (b1 &&& 0x1F).toNat
    let v := parseLaneStatus2 [s0, s1]
    healthVerdict Config.hw [b0, b1] [s0, s1, s2] p = .ok ↔
      (b0 = 0x06 ∨ b0 = 0x0A ∨ b0 = 0x14 ∨ b0 = 0x1E) ∧ (n = 1 ∨ n = 2 ∨ n = 4) ∧
      b0 = p.rateCode ∧ n = p.lanes.toNat ∧
      (s2.getLsbD 7 = true → allSet v.cr n = true ∧ allSet v.eq n = true ∧ allSet v.sl n = true ∧
        s2.getLsbD 0 = true) := by
  intro n v
  have hb0 : burstByte [b0, b1] 0 = b0 := rfl
  have hb1 : burstByte [b0, b1] 1 = b1 := rfl
  simp only [healthVerdict, hb0, hb1, hw_lcsLanesMask, parseStatus3_eq, verdict_illegal_iff,
    verdict_differs_iff, verdict_bad_iff, ite_not]
  split_ifs with hlegal hsame hgood
  · exact iff_of_true rfl ⟨hlegal.1, hlegal.2, hsame.1, hsame.2, hgood⟩
  · exact iff_of_false (by decide) fun ⟨_, _, _, _, hgood'⟩ => hgood hgood'
  · exact iff_of_false (by decide) fun ⟨_, _, hrate, hcount, _⟩ => hsame ⟨hrate, hcount⟩
  · exact iff_of_false (by decide) fun ⟨hcode, hlanes, _⟩ => hlegal ⟨hcode, hlanes⟩

/-- Settles O32: the verdict is one of two, and `OK` exactly on the condition. -/
theorem healthVerdictRule : Obligations.HealthVerdictRule := by
  intro b0 b1 s0 s1 s2 p n v healthy
  have hok : healthVerdict Config.hw [b0, b1] [s0, s1, s2] p = .ok ↔ healthy :=
    healthVerdict_eq_ok_iff b0 b1 s0 s1 s2 p
  exact ⟨hok.mpr, fun h => (healthVerdict_or _ _ _ _).resolve_left (mt hok.mp h)⟩

end Sys2Proof.Machine
end

section
/-! PROOF. The events that a step adds to the trace (R60): whatever an action makes up to its end, the end adds at
most a `DONE`. O55 and O58 use it for two kinds of events. -/

namespace Sys2Proof.Machine

open Sys2Proof

/-- From `u` to `v` events were only added, and each of them satisfies `Q`. -/
def AddsOnly (Q : Event → Prop) (u v : State) : Prop :=
  ∃ es, v.trace = u.trace ++ es ∧ ∀ ev ∈ es, Q ev

variable {Q : Event → Prop} {s u v : State}

theorem AddsOnly.of_same (h : v.trace = u.trace) : AddsOnly Q u v :=
  ⟨[], by rw [h, List.append_nil], nofun⟩

/-- One more event. -/
theorem AddsOnly.of_event {ev : Event} (h : v.trace = u.trace ++ [ev]) (hev : Q ev) : AddsOnly Q u v :=
  ⟨[ev], h, fun _ hm => List.mem_singleton.mp hm ▸ hev⟩

theorem AddsOnly.trans (h : AddsOnly Q s u) (k : AddsOnly Q u v) : AddsOnly Q s v := by
  obtain ⟨es, hes, hq⟩ := h
  obtain ⟨fs, hfs, kq⟩ := k
  refine ⟨es ++ fs, by rw [hfs, hes, List.append_assoc], fun ev hm => ?_⟩
  exact (List.mem_append.mp hm).elim (hq ev) (kq ev)

theorem IoOnly.addsOnly {R : Event → Prop} (h : IoOnly R s u) (hQ : ∀ ev, R ev → Q ev) : AddsOnly Q s u :=
  (h.mono hQ).events

/-- The end of an action makes no event of its own. -/
theorem AddsOnly.endAction (h : AddsOnly Q u v) : AddsOnly Q u (endAction v) := h

section Done

variable (hdone : ∀ r, Q (.done r))
include hdone

/-- `Done` adds a `DONE` event (R136). -/
theorem addsOnly_doneCmd (code : ResCode) (u : State) : AddsOnly Q u (doneCmd code u) :=
  .of_event rfl (hdone (u.result code))

/-- Taking an exception adds at most a `DONE` event (R260, R271). -/
theorem addsOnly_takeException (e : Exn) (u : State) : AddsOnly Q u (takeException e u) := by
  rcases takeException_cases e u with
    ⟨-, h⟩ | ⟨-, h⟩ | ⟨-, h⟩ | ⟨_, -, -, h⟩ | ⟨_, -, -, h⟩ | ⟨-, h⟩ <;> rw [h]
  · exact .of_same rfl
  · exact .of_same rfl
  · exact .of_same rfl
  · exact addsOnly_doneCmd hdone _ _
  · exact .of_same rfl
  · exact addsOnly_doneCmd hdone .badCommand { u with ses.phase := .none, ses.curRate := 0, ses.curLanes := 0 }

/-- The end of an action adds at most a `DONE` event. -/
theorem ActionEnd.addsOnly {x : Fsm} (h : ActionEnd u x v) : AddsOnly Q u v := by
  rcases h.done_or_same with ⟨code, rfl⟩ | ⟨-, -, ht⟩
  · exact addsOnly_doneCmd hdone code u
  · exact .of_same ht

/-- Accepting a word adds a `CMD` event and, if the word is refused, a `DONE` event (R130, R266). -/
theorem CommandEnd.addsOnly {w : BitVec 8} (h : CommandEnd w u v) (hcmd : Q (.cmd w)) : AddsOnly Q u v := by
  have hlatch : AddsOnly Q u (latchCommand w u) := .of_event rfl hcmd
  cases h with
  | refuses => exact hlatch.trans (addsOnly_takeException hdone _ _)
  | trains _ _ => exact hlatch
  | checks _ => exact hlatch

end Done

end Sys2Proof.Machine
end

section
/-! PROOF. The action of `HealthCheck` (R245, R249, R263): O31, O33, O58. Its run is its two reads, its sample and
`Done` with the verdict, or it ends with the read that fails. -/

namespace Sys2Proof.Machine

open Sys2Proof

section HealthCheck

variable {s : State} {e : Env} {b c : Attempts} {p : PhySample}

/-- Both reads answered (R245). -/
theorem exec_healthCheck_answered (hs : s.held = Held.empty) (hb : b.answered = true)
    (hc : c.answered = true)
    (he : s.env = e.before ⟨b.responses ++ c.responses, 0, [p], b.waits + c.waits, []⟩) :
    exec .stHealthCheck s = .next (doneCmd (healthVerdict Config.hw (b.bytes 2) (c.bytes 3) p)
      ((setPhase .health s).afterAux e (b.readEvents 0x100 2 ++ c.readEvents 0x202 3 ++ [.phyRd p]) c)) := by
  refine (runAction_phase _ _ _).trans
    (Ends.runAction_writes (s := setPhase .health (goTo .healthCheck s))
      (f := doneCmd (healthVerdict Config.hw (b.bytes 2) (c.bytes 3) p))
      (((memRead_ends 0x100 2 hb).bind ((memRead_ends 0x202 3 hc).bind ((phyStatus_ends p).bind
        (.of_apply fun _ => rfl)))).cast ?_ ?_ rfl)
      (fun _ _ => rfl) hs he)
  · simp [Held.append, Attempts.answers, Held.empty, Nat.add_comm]
  · simp

/-- A read fails five times: `AuxFail` completes the command (R263). -/
theorem runState_checkFails {d : Held} {evs : List Event} {addr : Addr} {a : Act Unit}
    (h : Ends a (setPhase .health (atStart .healthCheck s)) e (raisesIn (.auxFail addr)) d evs 4)
    (hs : s.held = Held.empty) (he : s.env = e.before d) :
    runState .healthCheck (modifyState (setPhase .health) >>= fun _ => a) s =
      .next (completed ((setPhase .health s).result .auxTransportError)
        { s.afterPorts e evs with auxTry := 4, ses.phase := .health }) :=
  (runAction_phase _ _ _).trans
    (Ends.runAction_checkFails (s := setPhase .health (goTo .healthCheck s)) h hs he rfl)

end HealthCheck

/-- Settles O31: the action with both reads answered. -/
theorem healthCheckCompletes : Obligations.HealthCheckCompletes := by
  intro s e b c p hs hb hc he verdict
  rw [exec_healthCheck_answered hs hb hc he]
  rfl

/-- Settles O33: the action ends with its first read, or with its second. -/
theorem healthCheckAuxFails : Obligations.HealthCheckAuxFails := by
  intro s e b c hs fails
  refine ⟨fun hb he => ?first, fun hb hc he => ?second⟩
  case first =>
    rw [← b.answers_failed hb] at he
    exact runState_checkFails (memRead_raises _ _ hb).bind_raises hs he
  case second =>
    refine runState_checkFails (Ends.cast
      ((memRead_ends 0x100 2 hb).bind (memRead_raises 0x202 3 hc).bind_raises) ?_ rfl rfl) hs he
    simp [Held.append, Attempts.answers, c.waits_failed hc, Nat.add_comm]

/-- No event of an AUX read drives anything outside the block. -/
theorem eventDrives_of_read {addr : Addr} {n : Nat} {ev : Event} (h : auxEvents (.read addr n) ev) :
    eventDrives ev = false := by
  rcases h with ⟨a, rfl⟩ | rfl <;> rfl

/-- The health check makes reads, waits and samples only (R245, R249). -/
theorem eventDrives_of_healthEvent {ev : Event} (h : healthEvent ev) : eventDrives ev = false := by
  rcases h with h | h | ⟨p, rfl⟩
  · exact eventDrives_of_read h
  · exact eventDrives_of_read h
  · rfl

/-- The health check, whatever it ends with, drives nothing (R249). -/
theorem healthCheck_drivesNothing {s t : State} (h : exec .stHealthCheck s = .next t) :
    AddsOnly (eventDrives · = false) s t := by
  obtain ⟨t', ht, hends⟩ := healthCheck_step s
  rw [ht] at h
  cases h
  rcases hends with ⟨hio, -, -⟩ | ⟨u, v, hio, -, -, hend, rfl⟩
  · exact hio.addsOnly fun _ => eventDrives_of_healthEvent
  · have hend' : AddsOnly (eventDrives · = false) u v := hend.actionEnd.addsOnly fun _ => rfl
    exact ((hio.addsOnly fun _ => eventDrives_of_healthEvent).trans hend').endAction

/-- What a health check completes with, given what its reads and its sample say: the session it runs in is a
fresh one (R132, R245). -/
def healthResult (b c : Attempts) (p : PhySample) : ResultRegs :=
  ⟨true, 2, healthVerdict Config.hw (b.bytes 2) (c.bytes 3) p, .health, 0, 0⟩

/-- The events of a health check with its reads answered (R245). -/
def healthEvents (b c : Attempts) (p : PhySample) : List Event :=
  b.readEvents 0x100 2 ++ c.readEvents 0x202 3 ++ [.phyRd p] ++ [.done (healthResult b c p)]

/-- A `CHECK_HEALTH` and its action, whatever the block did before (R249). -/
theorem checkHealth_outcome {x : BitVec 5} {s u t : State} {e : Env} {b c : Attempts} {p : PhySample}
    (hst : s.st = .idle) (hs : s.held = Held.empty) (hb : b.answered = true) (hc : c.answered = true)
    (he : s.env = e.before ⟨b.responses ++ c.responses, 0, [p], b.waits + c.waits, []⟩)
    (hu : exec (.checkHealth x) s = .next u) (ht : exec .stHealthCheck u = .next t) :
    t.res = healthResult b c p ∧ t.trace = u.trace ++ healthEvents b c p := by
  rw [checkHealthStartsSession s x hst] at hu
  cases hu
  have hop : (startedCommand (0#1 ++ x ++ 2#2) .healthCheck s).cmd.op = 2 := checkHealth_word_op x
  have hrun := healthCheckCompletes (startedCommand (0#1 ++ x ++ 2#2) .healthCheck s) e b c p hs hb hc he
  rw [hop, ht] at hrun
  cases hrun
  exact ⟨rfl, List.append_assoc _ _ _⟩

/-- Settles O58: the outcome of a health check depends on its answers only. -/
theorem healthCheckIsReadOnly : Obligations.HealthCheckIsReadOnly := by
  refine ⟨fun s t => healthCheck_drivesNothing, ?_⟩
  intro x y s s' u u' t t' e e' b c p hst hst' hs hs' hb hc h he he' hu ht hu' ht'
  obtain ⟨hres, htrace⟩ := checkHealth_outcome hst hs hb hc he hu ht
  obtain ⟨hres', htrace'⟩ := checkHealth_outcome hst' hs' hb hc he' hu' ht'
  exact ⟨hres.trans hres'.symm, healthEvents b c p, htrace, htrace'⟩

end Sys2Proof.Machine
end

section
/-! PROOF. The poll points (R268): O55. An action with a poll point polls first, and goes on with lines that never
poll; the other actions never poll. -/

namespace Sys2Proof.Machine

open Sys2Proof

/-! ### Events that are no polls -/

/-- The event is no poll. -/
abbrev NoPoll (ev : Event) : Prop := eventIsPoll ev = false

theorem noPoll_done (r : ResultRegs) : NoPoll (.done r) := rfl

theorem noPoll_of_aux {q : AuxReq} {ev : Event} (h : auxEvents q ev) : NoPoll ev := by
  rcases h with ⟨a, rfl⟩ | rfl
  · cases q <;> rfl
  · rfl

theorem noPoll_of_phyBlock {s : State} {ev : Event} (h : ev ∈ phyBlockEvents s) : NoPoll ev := by
  cases ev with
  | poll b => simp [phyBlockEvents] at h
  | _ => rfl

/-! ### The states without a poll point -/

/-- The action of a state without a poll point never polls. -/
theorem noPoll_of_actionEvent {s : State} {x : Fsm} {ev : Event} (hx : x ∉ pollStates)
    (h : actionEvent s x ev) : NoPoll ev := by
  cases x with
  | phySetup | clockRecovery | equalization => simp [pollStates] at hx
  | idle | reduceLinkRate | linkUnplugged => exact h.elim
  | capNeg | failed => exact noPoll_of_aux h
  | equalizationSetup =>
    obtain ⟨p, -, rfl | h⟩ := h
    · rfl
    · exact noPoll_of_aux h
  | success =>
    obtain rfl | h := h
    · rfl
    · exact noPoll_of_aux h
  | healthCheck =>
    obtain h | h | ⟨p, rfl⟩ := h
    · exact noPoll_of_aux h
    · exact noPoll_of_aux h
    · rfl

/-- A step in a state without a poll point makes no poll (R268). -/
theorem step_addsNoPoll {s t : State} (h : StepCase s t) (hs : s.st ∉ pollStates) : AddsOnly NoPoll s t := by
  cases h with
  | resets _ ht => subst ht; exact .of_same rfl
  | accepts w _ _ hc =>
    have hadds : AddsOnly NoPoll (afterFetch s) t := hc.addsOnly noPoll_done rfl
    exact hadds
  | idles _ _ ht => subst ht; exact .of_same rfl
  | acts _ _ hact =>
    have hio : ∀ u, IoOnly (actionEvent s s.st) (actionStart s) u → AddsOnly NoPoll s u :=
      fun u h => h.addsOnly fun _ => noPoll_of_actionEvent hs
    rcases hact with ⟨ht, -, -⟩ | ⟨u, v, hu, -, -, hend, rfl⟩
    · exact hio t ht
    · exact ((hio u hu).trans (hend.addsOnly noPoll_done)).endAction

/-! ### Lines that never poll -/

/-- Whatever inputs and outputs were made before, the piece of an action makes no poll. -/
abbrev NeverPolls (a : Act Unit) : Prop := ∀ s, LeadsTo NoPoll (AddsOnly NoPoll) s a

/-- Input and output without a poll, and whatever exception it raises. -/
theorem NeverPolls.io {α : Type} {R : Event → Prop} {E : Exn → Prop} {a : Act α} {f : α → Act Unit}
    (ha : DoesIo R E a) (hR : ∀ ev, R ev → NoPoll ev) (hf : ∀ x, NeverPolls (f x)) :
    NeverPolls (a >>= f) :=
  fun s => LeadsTo.io ha hR (fun e u _ _ => addsOnly_takeException noPoll_done e u) fun x => hf x s

theorem NeverPolls.get {f : State → Act Unit} (hf : ∀ x, NeverPolls (f x)) :
    NeverPolls (getState >>= f) :=
  fun s => LeadsTo.get fun x _ => hf x s

theorem NeverPolls.modify {f : State → State} (hf : ∀ u, (f u).trace = u.trace) :
    NeverPolls (modifyState f) :=
  fun _ => LeadsTo.modify fun u _ => .of_same (hf u)

theorem NeverPolls.raise (e : Exn) : NeverPolls (raise e) :=
  fun _ => LeadsTo.raise fun u _ => addsOnly_takeException noPoll_done e u

theorem NeverPolls.ite {c : Prop} [Decidable c] {a b : Act Unit} (ha : NeverPolls a) (hb : NeverPolls b) :
    NeverPolls (if c then a else b) :=
  fun s => LeadsTo.ite (fun _ => ha s) fun _ => hb s

theorem NeverPolls.phyOp {op : PhyOpc} {arg : BitVec 16} {f : Unit → Act Unit}
    (hf : ∀ x, NeverPolls (f x)) : NeverPolls (phyOp op arg >>= f) :=
  .io (phyOp_io op arg) (by rintro _ rfl; rfl) hf

theorem NeverPolls.memWrite {addr : Addr} {v : List Byte} {f : Unit → Act Unit}
    (hf : ∀ x, NeverPolls (f x)) : NeverPolls (memWrite Config.hw addr v >>= f) :=
  .io (memWrite_io addr v) (fun _ => noPoll_of_aux) hf

theorem NeverPolls.memRead {addr : Addr} {n : Nat} {f : List Byte → Act Unit}
    (hf : ∀ x, NeverPolls (f x)) : NeverPolls (memRead Config.hw addr n >>= f) :=
  .io (memRead_io addr n) (fun _ => noPoll_of_aux) hf

/-- The lines of `PhySetup` after its PHY block. -/
theorem phySetupLink_neverPolls (rate : RateIdx) : NeverPolls (phySetupLink rate) := by
  unfold phySetupLink writeLinkConfig
  simp only [bind_assoc]
  exact .get fun _ => .memWrite fun _ => .phyOp fun _ => .memWrite fun _ => .modify fun _ => rfl

/-- The lines of `PhySetup` after its poll. -/
theorem phySetup_neverPolls : NeverPolls (do
    let p ← phyStatus
    let s ← getState
    if phyDiffers Config.hw p s.ses.curRate s.ses.curLanes then phyProgram s else pure ()
    phySetupLink s.ses.curRate) := by
  refine .io phyStatus_io (by rintro _ ⟨p, rfl⟩; rfl) fun p => .get fun s => .ite ?_ ?_
  · exact .io (phyProgram_io s) (fun _ => noPoll_of_phyBlock) fun _ => phySetupLink_neverPolls _
  · exact phySetupLink_neverPolls _

/-- A training round after its poll. -/
theorem round_neverPolls {n : Nat} {f : List Byte → Act Unit} (hf : ∀ b, NeverPolls (f b)) :
    NeverPolls (do
      programLanes Config.hw
      waitReadInterval Config.hw
      let b ← memRead Config.hw 0x202 n
      f b) := by
  unfold programLanes waitReadInterval
  simp only [bind_assoc]
  exact .get fun _ => .phyOp fun _ => .memWrite fun _ => .get fun _ =>
    .io (waitUs_io _) (by rintro _ rfl; rfl) fun _ => .memRead hf

theorem AdjustEnd.trace {q : AdjustReq} {u v : State} (h : AdjustEnd q u v) : v.trace = u.trace := by
  cases h <;> rfl

/-- The lines of `ClockRecovery` after its status read. -/
theorem crAfterStatus_neverPolls (b : List Byte) : NeverPolls (crAfterStatus b) :=
  .get fun _ => .ite (.modify fun _ => rfl) (.ite (.modify fun _ => rfl)
    (.memRead fun _ => .modify fun _ => (crAfterAdjust_end _ _).trace))

/-- The lines of `Equalization` after its status read. -/
theorem eqAfterStatus_neverPolls (b : List Byte) : NeverPolls (eqAfterStatus b) :=
  .get fun _ => .ite (.modify fun _ => rfl) (.ite (.modify fun _ => rfl) (.ite (.raise _)
    (.memRead fun _ => .modify fun _ => rfl)))

/-! ### Polling first -/

/-- From `s` to `t` the action polled once, before every other event, and a poll that read 1 ended it. -/
def PollsFirst (s t : State) : Prop :=
  ∃ b es, t.trace = s.trace ++ .poll b :: es ∧ (∀ ev ∈ es, NoPoll ev) ∧
    (b = true → es = [] ∧ t.st = .linkUnplugged)

/-- A poll that is not a repeated one makes its event, whatever the wire shows (R75). -/
theorem pollUnplug_polls {r : Run} (hr : r.replay.polls = []) :
    ∃ b v, pollUnplug r = .ok b { r with s := v } ∧ v.trace = r.s.trace ++ [.poll b] ∧ v.out = r.s.out := by
  obtain ⟨hio, hout, -⟩ := nextUnplug_io r.s
  obtain ⟨es, hes, hno⟩ := hio.events
  obtain rfl : es = [] := List.eq_nil_iff_forall_not_mem.mpr hno
  refine ⟨(nextUnplug r.s).1, emit (.poll (nextUnplug r.s).1)
    { (nextUnplug r.s).2 with held.polls := (nextUnplug r.s).2.held.polls ++ [(nextUnplug r.s).1] },
    by simp [pollUnplug, hr], ?_, hout⟩
  rw [emit_trace, hes, List.append_nil]

/-- An action whose run goes on from `v` as lines that never poll makes no poll from there on. -/
theorem NeverPolls.addsNoPoll {a rest : Act Unit} (hrest : NeverPolls rest) {s v t : State} {d : Held}
    (hv : NoRequest v) (hrun : a ⟨dropRequests s, s.held⟩ = rest ⟨v, d⟩) (h : runAction a s = .next t) :
    AddsOnly NoPoll v t := by
  have hend := hrest v ⟨v, d⟩ (.refl _ _) hv id
  rw [← hrun] at hend
  rcases runAction_cases a s with ⟨r, hr, hnext⟩ | ⟨e, r, hr, hnext⟩ | ⟨r, hr, hnext⟩ <;>
    rw [hr] at hend <;> rw [hnext] at h <;> cases h
  · obtain ⟨u, hio, -, -, hadds⟩ := hend
    exact (hio.addsOnly fun _ => id).trans hadds
  · obtain ⟨u, hio, -, -, hadds⟩ := hend
    exact (hio.addsOnly fun _ => id).trans hadds
  · exact hend.1.addsOnly fun _ => id

/-- An action that polls and then never polls again polls first. -/
theorem runAction_pollsFirst {rest : Act Unit} (hrest : NeverPolls rest) {s t : State}
    (hs : s.held = Held.empty) (h : runAction (pollPoint >>= fun _ => rest) s = .next t) :
    PollsFirst s t := by
  obtain ⟨b, v, hpoll, htrace, hout⟩ := pollUnplug_polls (r := ⟨dropRequests s, s.held⟩) (by rw [hs]; rfl)
  have hv : NoRequest v := by rw [NoRequest, hout]; exact ⟨rfl, rfl, rfl⟩
  have htrace : v.trace = s.trace ++ [.poll b] := htrace
  cases b with
  | true =>
    have hrun : (pollPoint >>= fun _ => rest) ⟨dropRequests s, s.held⟩ =
        .error (.raised .linkUnplugged) ⟨v, s.held⟩ := by
      rw [act_bind, pollPoint, act_bind, hpoll]; rfl
    rw [runAction, hrun] at h
    cases h
    exact ⟨true, [], htrace, nofun, fun _ => ⟨rfl, rfl⟩⟩
  | false =>
    have hrun : (pollPoint >>= fun _ => rest) ⟨dropRequests s, s.held⟩ = rest ⟨v, s.held⟩ := by
      rw [act_bind, pollPoint, act_bind, hpoll]; rfl
    obtain ⟨es, hes, hno⟩ := hrest.addsNoPoll hv hrun h
    exact ⟨false, es, by rw [hes, htrace, List.append_assoc]; rfl, hno, nofun⟩

/-- The action of a state with a poll point polls first (R160, R170, R197). -/
theorem exec_pollsFirst {x : Fsm} (hx : x ∈ pollStates) {s t : State} (hs : s.held = Held.empty)
    (h : exec (stateInstr x) s = .next t) : PollsFirst s t := by
  simp only [pollStates, List.mem_cons, List.not_mem_nil, or_false] at hx
  rcases hx with rfl | rfl | rfl
  · exact runAction_pollsFirst phySetup_neverPolls (s := setPhase .phySetup (goTo .phySetup s)) hs
      ((runAction_phase _ _ _).symm.trans h)
  · exact runAction_pollsFirst (round_neverPolls crAfterStatus_neverPolls)
      (s := setPhase .cr (goTo .clockRecovery s)) hs ((exec_clockRecovery_eq s).symm.trans h)
  · exact runAction_pollsFirst (round_neverPolls eqAfterStatus_neverPolls)
      (s := setPhase .eq (goTo .equalization s)) hs ((exec_equalization_eq s).symm.trans h)

/-- Settles O55: a step in a state with a poll point runs its action, which polls first. -/
theorem pollPoints : Obligations.PollPoints := by
  intro s t hr hs h
  by_cases hx : s.st ∈ pollStates
  · have hne : s.st ≠ .idle := fun hi => by simp [hi, pollStates] at hx
    rw [step_of_fetch hr (fetch_state (.inl hne))] at h
    obtain ⟨b, es, htrace, hno, hend⟩ := exec_pollsFirst hx (s := afterFetch s) hs h
    exact ⟨.poll b :: es, htrace, fun hx' => absurd hx hx', fun _ => ⟨b, es, rfl, hno, hend⟩⟩
  · obtain ⟨es, hes, hno⟩ := step_addsNoPoll (step_cases h) hx
    exact ⟨es, hes, fun _ => hno, fun hx' => absurd hx' hx⟩

end Sys2Proof.Machine
end
